-- ==== Sys2Proof/Word.lean ====
section
/-! DEFINITION. The words of the IW48: bytes, 32-bit words, 24-bit word addresses, byte lanes, numbers of the link. -/

namespace Sys2Proof

/-- A byte of the supervisor link. -/
abbrev Byte := BitVec 8

/-- A word of memory: 32 bits in four byte lanes (00_scope.md, Table 0-3). -/
abbrev Word := BitVec 32

/-- A word address, 000000h to FFFFFFh. -/
abbrev Addr := BitVec 24

/-- A set of byte lanes, bit n for lane n (R184). -/
abbrev Lanes := BitVec 4

/-- A sequence number; its arithmetic is modulo 65536 (R124). -/
abbrev Seq := BitVec 16

/-- A value of the tick counter; its arithmetic is modulo 2^32 (R98). -/
abbrev TickCount := BitVec 32

/-- A class, 0 to 3, 0 being the most urgent. -/
abbrev ClassNo := Fin 4

end Sys2Proof
end

