-- ==== Sys2Proof/Syntax.lean ====
section
/-! DEFINITION. The commands of the IW48: one constructor of `Instr` for each row of spec/opcode_table.json. -/

namespace Sys2Proof

/-- Direction of a transaction or access. -/
inductive Direction where
  | read | write
deriving DecidableEq, Repr

/-- Burst length of a transaction (R77). -/
inductive BurstLength where
  | one | two | four | eight
deriving DecidableEq, Repr

/-- The number of beats of a burst length. -/
def BurstLength.beats : BurstLength → Nat
  | .one => 1
  | .two => 2
  | .four => 4
  | .eight => 8

/-- Which comes first within one tick: the alert unit's count of the tick, or the records that the tick raises. R145 lets
either be first (log 5). -/
inductive TickOrder where
  | alertFirst | recordsFirst
deriving DecidableEq, Repr

/-- The commands. Each constructor's docstring names its row of the table and the rule that the row cites. -/
inductive Instr where
  /-- POWER_UP (R92): power-on, or PORN low. -/
  | powerUp
  /-- POWER_UP_RESET_END (R190): the power-on detector and PORN have both released. -/
  | powerUpResetEnd
  /-- INITIALISATION_END (R190): the 16th BCLK edge after the power-up reset. -/
  | initialisationEnd
  /-- SRSTN_FALL (R182): a fall of SRSTN as taken by the filter of R190. -/
  | srstnFall
  /-- SRSTN_RISE (R182): a rise of SRSTN as taken. -/
  | srstnRise
  /-- HOST_RESET (R89): a fall of HRSTN as taken. -/
  | hostReset
  /-- HRSTN_RISE (R90): a rise of HRSTN as taken. -/
  | hrstnRise
  /-- TRANSACTION_REQUEST_TAKEN (R78): the host offers a request; the host lines HADR, HDIR, HLEN, HWD and HSTB in that
  period, as the pins show them (R79, R80, R190). -/
  | transactionRequestTaken (start : Addr) (hdir : Bool) (hlen : BitVec 2) (data : Word) (strobes : Lanes)
  /-- BEAT_TAKEN (R79): the host offers the next beat; the host lines in that period. -/
  | beatTaken (data : Word) (strobes : Lanes)
  /-- MEMORY_READY (R55): memory asserts ready, with the read data and memory error it gives. -/
  | memoryReady (data : Word) (error : Bool)
  /-- RESPONSE_LIMIT (R56): the 1024th period of the access ends without an answer. -/
  | responseLimit
  /-- TICK (R97): the divider count reaches the divisor. -/
  | tick (order : TickOrder)
  /-- DEADLINE_LAPSE (R21): the tick at which the entry's remaining reaches zero. -/
  | deadlineLapse (index : Nat) (order : TickOrder)
  /-- RATE_WINDOW_OPENS (R111): the tick at which the entry's window left reaches zero. -/
  | rateWindowOpens (index : Nat) (order : TickOrder)
  /-- STROBE_PULSE_END (R145): the tick at which the class's pulse remaining reaches zero. -/
  | strobePulseEnd (cls : ClassNo) (order : TickOrder)
  /-- GAP_COUNT_EXPIRY (R100): the gap count reaches 64. -/
  | gapCountExpiry
  /-- REFCLK_RISING_EDGE (R101); the order applies when the edge makes a tick (R97). -/
  | refclkRisingEdge (order : TickOrder)
  /-- CSN_FALL (R157). -/
  | csnFall
  /-- CSN_RISE (R162). -/
  | csnRise
  /-- REQUEST_BYTE_RECEIVED (R157): a byte that does not end the frame. -/
  | requestByteReceived (byte : Byte)
  /-- RESPONSE_BYTE_SENT (R161): a byte is sent after the check. -/
  | responseByteSent
  /-- BAD_FRAME (R159): the byte that ends a frame over length, or a CRC byte that does not match. -/
  | badFrame (byte : Byte)
  /-- BAD_COMMAND (R160): a frame whose CRC matches and whose code is unknown. -/
  | badCommand (code : Byte) (payload : List Byte)
  /-- IDENTIFY (R165), with its frame's payload bytes, as for every request below (log 6). -/
  | identify (payload : List Byte)
  /-- READ_STATUS (R166). -/
  | readStatus (payload : List Byte)
  /-- LOAD_ENTRY (R167): index and 24 descriptor bytes. -/
  | loadEntry (payload : List Byte)
  /-- ARM_ENTRY (R168): index. -/
  | armEntry (payload : List Byte)
  /-- DISARM_ENTRY (R17, R169): index. -/
  | disarmEntry (payload : List Byte)
  /-- CLEAR_ENTRY (R18, R169): index. -/
  | clearEntry (payload : List Byte)
  /-- RESYNC_ENTRY (R19, R170): index. -/
  | resyncEntry (payload : List Byte)
  /-- QUERY_ENTRY (R172): index. -/
  | queryEntry (payload : List Byte)
  /-- SUSPEND (R24, R173). -/
  | suspend (payload : List Byte)
  /-- RESUME (R26, R173). -/
  | resume (payload : List Byte)
  /-- READ_EVENTS (R174): k. -/
  | readEvents (payload : List Byte)
  /-- ACK_EVENTS (R133, R175): s, two bytes. -/
  | ackEvents (payload : List Byte)
  /-- SET_CLASS (R148, R176): class, mask, line mode, strobe length. -/
  | setClass (payload : List Byte)
  /-- CLEAR_MISSED (R151, R176): a set of classes. -/
  | clearMissed (payload : List Byte)
  /-- SET_PART_CLASSES (R122, R177): four classes. -/
  | setPartClasses (payload : List Byte)
  /-- SET_TIMEBASE (R105, R178): source, divisor in two bytes. -/
  | setTimebase (payload : List Byte)
  /-- RESET_PART (R179). -/
  | resetPart (payload : List Byte)
deriving DecidableEq, Repr

end Sys2Proof
end

