-- ==== Sys2Proof/WellFormed.lean ====
section
/-! DEFINITION. Which commands can be spelled on the part's pins. -/

namespace Sys2Proof

/-- The request codes of Table 9-2 (R185). -/
def requestCodes : List Byte :=
  [0x01, 0x02, 0x10, 0x11, 0x12, 0x13, 0x14, 0x15, 0x20, 0x21, 0x30, 0x31, 0x40, 0x41, 0x42, 0x50, 0x60]

/-- The most payload bytes a request frame holds (R157). -/
def maxPayload : Nat := 40

/-- The number of watch entries (R1). -/
def entryCount : Nat := 48

/-- A command is well formed when its payload fits a frame (R157), its entry index names an entry (R1), and a bad command's
code is none of Table 9-2. -/
def Instr.wf : Instr → Bool
  | .powerUp | .powerUpResetEnd | .initialisationEnd | .srstnFall | .srstnRise | .hostReset | .hrstnRise => true
  | .transactionRequestTaken _ _ _ _ _ | .beatTaken _ _ | .memoryReady _ _ | .responseLimit => true
  | .tick _ | .strobePulseEnd _ _ | .gapCountExpiry | .refclkRisingEdge _ => true
  | .deadlineLapse index _ | .rateWindowOpens index _ => decide (index < entryCount)
  | .csnFall | .csnRise | .requestByteReceived _ | .responseByteSent | .badFrame _ => true
  | .badCommand code payload => decide (payload.length ≤ maxPayload) && !requestCodes.contains code
  | .identify p | .readStatus p | .loadEntry p | .armEntry p | .disarmEntry p | .clearEntry p | .resyncEntry p
  | .queryEntry p | .suspend p | .resume p | .readEvents p | .ackEvents p | .setClass p | .clearMissed p
  | .setPartClasses p | .setTimebase p | .resetPart p => decide (p.length ≤ maxPayload)

end Sys2Proof
end

