-- ==== Sys2Proof/Decode.lean ====
section
/-! DEFINITION. The commands that a word of the opcode table's bits spells. No row of spec/opcode_table.json gives bits
(every row's "fields" is empty), so no word spells a command. -/

namespace Sys2Proof

/-- The command that the word w of nbits bits spells by the table's bits: none, for every word. -/
def decodeTableWord (_nbits _w : Nat) : Option Instr := none

end Sys2Proof
end

