-- ==== Sys2Proof/Config.lean ====
section
/-! DEFINITION. What the manual leaves open: free values, with no body. -/

namespace Sys2Proof

/-- Free value (log 2): whether the clock edge that passes in the n-th idle step is one of BCLK. The clocks are independent,
and the manual gives no order between them. -/
opaque Config.idleEdgeIsBclk (n : Nat) : Bool

/-- Free value (log 2): whether the n-th idle step's edge, when it is not one of BCLK, is one of SCK. When it is neither, it
is one of IRC. -/
opaque Config.idleEdgeIsSck (n : Nat) : Bool

/-- Free value (log 2): the level of SDI at the n-th idle step's edge of SCK. -/
opaque Config.idleSdiHigh (n : Nat) : Bool

/-- Free value (log 2): whether the pin SRSTN is low at the n-th idle step's edge of BCLK. -/
opaque Config.idleSrstnLow (n : Nat) : Bool

/-- Free value (log 2): whether the pin HRSTN is low at the n-th idle step's edge of BCLK. -/
opaque Config.idleHrstnLow (n : Nat) : Bool

/-- Free value (log 2): the order, one of six, in which the n-th idle step's edge of BCLK samples SRSTN, samples HRSTN and
counts its period. The manual lets events that come together be taken in either order. -/
opaque Config.idleEdgeOrder (n : Nat) : Fin 6

/-- Free value (log 5): whether, at the tick that the n-th idle step makes, the alert unit counts the tick before it takes
the tick's records. R145 allows either. -/
opaque Config.idleTickAlertFirst (n : Nat) : Bool

end Sys2Proof
end

