-- ==== Sys2Proof/Machine/State.lean ====
section
/-! DEFINITION. The state of the IW48 as plain data, the reasons a step can stop, and the state after reset. -/

namespace Sys2Proof.Machine

/-- The faults of the model: none. What the manual calls a fault (a memory error, the response limit, a bad frame, a lost
clock) is an answer, an event or a status of the link, and the part goes on. Safe: no command ends in a fault. -/
inductive Fault where
deriving DecidableEq, Repr

/-- The refusals of the model. -/
inductive Refusal where
  /-- Raised by an arm of exec for a command without a meaning; no arm does. Safe: the run stops there. -/
  | notModelled (mnemonic : String)
deriving DecidableEq, Repr

/-! ## Power and pins -/

/-- Where the part stands in its start-up (R190): the power-up reset lasts; it has ended and so many BCLK edges of
initialisation have passed; or initialisation has ended. -/
inductive PowerPhase where
  | powerUpReset
  | initialising (edges : Nat)
  | running
deriving DecidableEq, Repr

/-- The levels of the link's and the resets' pins: CSN and SCK (R155); SRSTN and HRSTN as taken by the filter of R190 and as
sampled at the latest edge of BCLK; and SDO, absent while it is not driven (R155). -/
structure Pins where
  csnLow : Bool
  sckHigh : Bool
  srstnLow : Bool
  srstnSample : Bool
  hrstnLow : Bool
  hrstnSample : Bool
  sdo : Option Bool
deriving DecidableEq, Repr

/-- The pins while the power-up reset lasts and as it ends: SRSTN and HRSTN taken high, SDO not driven (R181, R190). CSN and
SCK are the supervisor's. -/
def Pins.atPowerUp (csnLow sckHigh : Bool) : Pins := ⟨csnLow, sckHigh, false, false, false, false, none⟩

/-! ## Watch table -/

/-- The part mode (R23). -/
inductive PartMode where
  | monitoring | suspended
deriving DecidableEq, Repr

/-- The states of an entry (Table 1-4). -/
inductive EntryState where
  | empty | loaded | pending | fetching | armed | lapsed
deriving DecidableEq, Repr

/-- What an entry watches (Table 1-1, field 1). -/
inductive Kind where
  | condition | deadline | count
deriving DecidableEq, Repr

/-- How a COUNT entry counts (field 2). -/
inductive CountMode where
  | total | rate
deriving DecidableEq, Repr

/-- The directions an entry watches (field 4). -/
inductive Sense where
  | writes | reads | both
deriving DecidableEq, Repr

/-- What an entry asks for a beat (field 5). -/
inductive Action where
  | pass | drop | reject
deriving DecidableEq, Repr

/-- The outcome for a beat as a whole (R44). -/
inductive Disposition where
  | passed | dropped | rejected
deriving DecidableEq, Repr

/-- A descriptor: the thirteen fields of Table 1-1 in descriptor order. -/
structure Descriptor where
  kind : Kind
  countMode : CountMode
  changeOnly : Bool
  sense : Sense
  action : Action
  cls : ClassNo
  base : Addr
  limit : Addr
  mask : Word
  reference : Word
  reload : BitVec 16
  window : BitVec 16
  readBack : Bool
deriving DecidableEq, Repr

/-- The runtime fields of an entry besides its state (Table 1-3), and `spared`: a completion has restarted or resumed the
countdown since the last tick that reached it, so that the coming tick does not lapse the entry (R22, R49, R107; log 18). -/
structure Runtime where
  shadow : Word
  remaining : Nat
  allowance : Nat
  windowLeft : Nat
  windowTripped : Bool
  excess : Nat
  lapseTick : TickCount
  spared : Bool
deriving DecidableEq, Repr

/-- Runtime fields all zero (R1). -/
def Runtime.zero : Runtime := ⟨0, 0, 0, 0, false, 0, 0, false⟩

/-- A watch entry (R1); an EMPTY entry holds no descriptor. -/
structure Entry where
  state : EntryState
  desc : Option Descriptor
  rt : Runtime
deriving DecidableEq, Repr

/-- The EMPTY entry (R1). -/
def Entry.empty : Entry := ⟨.empty, none, Runtime.zero⟩

/-! ## Beats, transactions and the decision in progress -/

/-- What a beat or access does: read, or write data under byte strobes. -/
inductive BeatOp where
  | read
  | write (data : Word) (strobes : Lanes)
deriving DecidableEq, Repr

/-- The direction of a beat. -/
def BeatOp.dir : BeatOp → Direction
  | .read => .read
  | .write _ _ => .write

/-- The state of the current beat (R81); an answered or discarded beat is absent. -/
inductive BeatState where
  | taken | held
  | decided (disposition : Disposition)
  | atMemory
deriving DecidableEq, Repr

/-- The current beat of a transaction (R77): its index from 1, its word address, what it does and its state. -/
structure Beat where
  index : Nat
  addr : Addr
  op : BeatOp
  state : BeatState
deriving DecidableEq, Repr

/-- The course of a transaction (R77). -/
inductive Course where
  | normal | refused | cut
deriving DecidableEq, Repr

/-- An answer of the host port (R83). -/
inductive HostAnswer where
  | dataOk (data : Word)
  | completionOk
  | error
deriving DecidableEq, Repr

/-- The transaction record (R77), with the answer that the host port holds for the current beat and has not given yet (R83,
R89; log 13). -/
structure Transaction where
  start : Addr
  dir : Direction
  len : BurstLength
  answered : Nat
  course : Course
  current : Option Beat
  held : Option HostAnswer
deriving DecidableEq, Repr

/-- The decision in progress of a held beat (R28, R32): the entries that cover the beat and the blocking ones among them,
in ascending index. The beat is the host port's current beat. -/
structure Decision where
  covering : List Nat
  blocking : List Nat
deriving DecidableEq, Repr

/-! ## Memory port -/

/-- The status of a fetch request (R59). -/
inductive FetchStatus where
  | queued | issued
deriving DecidableEq, Repr

/-- A request of the fetch list (R59). -/
structure FetchRequest where
  entry : Nat
  addr : Addr
  status : FetchStatus
  orphaned : Bool
deriving DecidableEq, Repr

/-- Whose access is on the memory bus. -/
inductive AccessOwner where
  /-- A host beat; `answerWanted` is false once a host reset has left its answer to be discarded (R89, R90). -/
  | host (answerWanted : Bool)
  /-- The ISSUED request of the fetch list. -/
  | fetch
  /-- A fetch whose request a supervisor reset took out of the list (R62, R74). -/
  | strayFetch
deriving DecidableEq, Repr

/-- The access on the memory bus (R55, R57), with the number of the BCLK period it is in, the first being 1 (R56). -/
structure Access where
  owner : AccessOwner
  addr : Addr
  op : BeatOp
  period : Nat
deriving DecidableEq, Repr

/-- The kinds of grant of the arbiter (R67). -/
inductive GrantKind where
  | kind1 | kind2 | kind3
deriving DecidableEq, Repr

/-- The memory port: fetch list head first, access on the bus, record of the last grant (none for NONE, R68). -/
structure MemoryPort where
  list : List FetchRequest
  bus : Option Access
  lastGrant : Option GrantKind
deriving DecidableEq, Repr

/-! ## Time base -/

/-- The source of the time base (R96). -/
inductive Source where
  | irc | refclk
deriving DecidableEq, Repr

/-- The state of the REFCLK monitor (R100). -/
inductive Monitor where
  | running | lost
deriving DecidableEq, Repr

/-- The time base (Table 5-1). -/
structure TimeBase where
  source : Source
  divisor : BitVec 16
  dividerCount : Nat
  tickCounter : TickCount
  monitor : Monitor
  gap : Nat
  run : Nat
deriving DecidableEq, Repr

/-! ## Event queue -/

/-- The eleven kinds of event (Table 6-2). -/
inductive EventKind where
  | conditionBroken | countExhausted | rateExceeded | deadlineLapsed | deadlineResumed | readbackDiverged | fetchFailed
  | hostReset | memoryError | memoryTimeout | timebaseFallback
deriving DecidableEq, Repr

/-- An event as the raising block hands it over: the fields of Table 6-1 but the sequence number. -/
structure Event where
  kind : EventKind
  cls : ClassNo
  tick : TickCount
  entry : Option Nat := none
  address : Option Addr := none
  lanes : Option Lanes := none
  old : Option Word := none
  new : Option Word := none
  disposition : Option Disposition := none
  detail : Option (BitVec 16) := none
deriving DecidableEq, Repr

/-- A record of the queue: an event with its sequence number (R119). -/
structure Record where
  sequence : Seq
  event : Event
deriving DecidableEq, Repr

/-- The classes assigned to the four part events (R122). -/
structure PartClasses where
  hostReset : ClassNo
  memoryError : ClassNo
  memoryTimeout : ClassNo
  timebaseFallback : ClassNo
deriving DecidableEq, Repr

/-- The event queue: records head first, next sequence number, part-event classes (R118). -/
structure EventQueue where
  records : List Record
  next : Seq
  classes : PartClasses
deriving DecidableEq, Repr

/-! ## Alert unit -/

/-- The mode of an alert line (R141). -/
inductive LineMode where
  | level | strobe
deriving DecidableEq, Repr

/-- The alert unit's state of one class (Table 7-1). -/
structure ClassState where
  maskOpen : Bool
  mode : LineMode
  strobeLength : Nat
  missed : Bool
  count : Nat
  pulse : Nat
  line : Bool
deriving DecidableEq, Repr

/-- The alert unit: one state for each class. -/
structure AlertUnit where
  class0 : ClassState
  class1 : ClassState
  class2 : ClassState
  class3 : ClassState
deriving DecidableEq, Repr

/-! ## Supervisor link -/

/-- The phases of the link (Table 8-2). -/
inductive LinkPhase where
  | idle | request | turnaround | response | trailing
deriving DecidableEq, Repr

/-- The state of the link (Table 8-1), with the bits sampled of the byte in progress, first bit first (R155). -/
structure Link where
  phase : LinkPhase
  position : Nat
  code : Byte
  length : Byte
  payload : List Byte
  crc : Byte
  response : List Byte
  resetPending : Bool
  bits : List Bool
deriving DecidableEq, Repr

/-! ## Outputs -/

/-- What the part gives out in one step: the host port's answer and the byte whose sending on SDO ends, each absent when
there is none (log 7). -/
structure Outputs where
  answer : Option HostAnswer
  sdo : Option Byte
deriving DecidableEq, Repr

/-! ## The whole part -/

/-- The state of the IW48, with the queue of the commands that wait. -/
structure State where
  power : PowerPhase
  pins : Pins
  mode : PartMode
  entries : List Entry
  checker : Option Decision
  host : Option Transaction
  port : MemoryPort
  time : TimeBase
  queue : EventQueue
  alerts : AlertUnit
  link : Link
  out : Outputs
  idles : Nat
  pending : List Instr
deriving DecidableEq, Repr

/-! ## Reset values -/

/-- The table after power-up and supervisor reset: 48 EMPTY entries (R2). -/
def resetEntries : List Entry := List.replicate entryCount Entry.empty

/-- The memory port at power-up (R58). -/
def MemoryPort.reset : MemoryPort := ⟨[], none, none⟩

/-- The time base at power-up (R115, Table 5-1). -/
def TimeBase.reset : TimeBase := ⟨.irc, 1000, 0, 0, .lost, 0, 0⟩

/-- The part-event classes after power-up and supervisor reset (Table 6-3). -/
def PartClasses.reset : PartClasses := ⟨3, 1, 1, 2⟩

/-- The event queue after power-up and supervisor reset (R137, R138). -/
def EventQueue.reset : EventQueue := ⟨[], 0, PartClasses.reset⟩

/-- A class after power-up and supervisor reset (R152, R153, Table 7-1). -/
def ClassState.reset : ClassState := ⟨true, .level, 1, false, 0, 0, false⟩

/-- The alert unit after power-up and supervisor reset (R152, R153). -/
def AlertUnit.reset : AlertUnit := ⟨.reset, .reset, .reset, .reset⟩

/-- The link in IDLE, holding no request and no response, no bit and no RESET PART pending (R155, R156). Position, code, length and
running CRC have no reset value in the manual: DESIGN CHOICE, log 11. -/
def Link.idle : Link := ⟨.idle, 0, 0, 0, [], 0xFF, [], false, []⟩

/-- Outputs of a step that gives none: no answer, no byte sent. -/
def Outputs.none : Outputs := ⟨Option.none, Option.none⟩

/-- The part at power-up, the power-up reset lasting: every block at its power-up values (R2, R29, R58, R92, R115, R137,
R152, R156), SRSTN and HRSTN taken high (R190), CSN high and SCK low (DESIGN CHOICE, log 10), no command waiting. -/
def State.reset : State where
  power := .powerUpReset
  pins := .atPowerUp false false
  mode := .monitoring
  entries := resetEntries
  checker := none
  host := none
  port := .reset
  time := .reset
  queue := .reset
  alerts := .reset
  link := .idle
  out := .none
  idles := 0
  pending := []

end Sys2Proof.Machine
end

