-- ==== Sys2Proof/Machine/Flags.lean ====
section
/-! DEFINITION. The alert unit: class counts, missed marks, pulses and lines (chapter 7). -/

namespace Sys2Proof.Machine

/-- The state of one class. -/
def AlertUnit.get (a : AlertUnit) (c : ClassNo) : ClassState :=
  match c with
  | 0 => a.class0
  | 1 => a.class1
  | 2 => a.class2
  | 3 => a.class3

/-- The alert unit with the state of one class replaced. -/
def AlertUnit.set (a : AlertUnit) (c : ClassNo) (k : ClassState) : AlertUnit :=
  match c with
  | 0 => { a with class0 := k }
  | 1 => { a with class1 := k }
  | 2 => { a with class2 := k }
  | 3 => { a with class3 := k }

/-- The same change made to every class. -/
def AlertUnit.mapAll (f : ClassState → ClassState) (a : AlertUnit) : AlertUnit :=
  ⟨f a.class0, f a.class1, f a.class2, f a.class3⟩

/-- R141: the class holds a record or its missed mark is set. -/
def ClassState.pending (k : ClassState) : Bool := decide (0 < k.count) || k.missed

/-- R141, R143: what the class's line shows. -/
def ClassState.lineValue (k : ClassState) : Bool :=
  match k.mode with
  | .level => k.maskOpen && k.pending
  | .strobe => decide (0 < k.pulse)

/-- The class with its line driven to the value of its state. -/
def ClassState.drive (k : ClassState) : ClassState := { k with line := k.lineValue }

/-- R144: a start of a pulse, which a class in STROBE mode whose mask is OPEN makes. -/
def ClassState.startPulse (k : ClassState) : ClassState :=
  if k.maskOpen && decide (k.mode = .strobe) then { k with pulse := k.strobeLength + 1 } else k

/-- The changes that the event queue hands to the alert unit (R128). -/
inductive AlertChange where
  | appended (cls : ClassNo)
  | removed (cls : ClassNo)
  | marked (cls : ClassNo)
deriving DecidableEq, Repr

/-- One change taken, the lines not yet driven (R142, R144, R147). -/
def AlertUnit.change (a : AlertUnit) : AlertChange → AlertUnit
  | .appended c => a.set c { (a.get c) with count := (a.get c).count + 1 }.startPulse
  | .removed c => a.set c { (a.get c) with count := (a.get c).count - 1 }
  | .marked c => a.set c { (a.get c) with missed := true }.startPulse

/-- R142: the changes of one outcome taken together, and then the lines driven. -/
def AlertUnit.take (a : AlertUnit) (changes : List AlertChange) : AlertUnit :=
  (changes.foldl AlertUnit.change a).mapAll ClassState.drive

/-- R145: one class at a tick; a pulse counts down and at 0 its line is released. -/
def ClassState.ticked (k : ClassState) : ClassState :=
  if 0 < k.pulse then { k with pulse := k.pulse - 1 }.drive else k

/-- R145: the tick handed to the alert unit. -/
def AlertUnit.ticked (a : AlertUnit) : AlertUnit := a.mapAll ClassState.ticked

/-- R149, Table 7-2: a class after SET CLASS. A pulse runs on only where mask OPEN and mode STROBE are kept. -/
def ClassState.configured (k : ClassState) (maskOpen : Bool) (mode : LineMode) (strobeLength : Nat) : ClassState :=
  { k with
    maskOpen, mode, strobeLength
    pulse := if maskOpen && decide (mode = LineMode.strobe) && k.maskOpen && decide (k.mode = LineMode.strobe) then k.pulse
      else 0 }.drive

/-- R151: a class named by CLEAR MISSED. -/
def ClassState.cleared (k : ClassState) : ClassState := { k with missed := false }.drive

/-- The four classes in order. -/
def allClasses : List ClassNo := [0, 1, 2, 3]

/-- R151: the marks of the classes in the set cleared. -/
def AlertUnit.clearMissed (a : AlertUnit) (set : BitVec 4) : AlertUnit where
  class0 := if set.getLsbD 0 then a.class0.cleared else a.class0
  class1 := if set.getLsbD 1 then a.class1.cleared else a.class1
  class2 := if set.getLsbD 2 then a.class2.cleared else a.class2
  class3 := if set.getLsbD 3 then a.class3.cleared else a.class3

/-- The four missed marks. -/
def AlertUnit.marks (a : AlertUnit) (c : ClassNo) : Bool := (a.get c).missed

/-- The four lines. -/
def AlertUnit.lines (a : AlertUnit) (c : ClassNo) : Bool := (a.get c).line

end Sys2Proof.Machine
end

