-- ==== Sys2Proof/Machine/Table.lean ====
section
/-! DEFINITION. The watch entries: start values, coverage, merged values, verdicts, completion effects and tick work, each
as a function of one entry, and the walk over the table in ascending index. -/

namespace Sys2Proof.Machine

/-! ## Descriptors and coverage -/

/-- R6: a CONDITION entry, or a COUNT entry with change-only. -/
def Descriptor.shadowBearing (d : Descriptor) : Bool :=
  match d.kind with
  | .condition => true
  | .deadline => false
  | .count => d.changeOnly

/-- A COUNT entry in RATE mode. -/
def Descriptor.isRate (d : Descriptor) : Bool :=
  decide (d.kind = .count) && decide (d.countMode = .rate)

/-- A COUNT entry in TOTAL mode. -/
def Descriptor.isTotal (d : Descriptor) : Bool :=
  decide (d.kind = .count) && decide (d.countMode = .total)

/-- A DEADLINE entry. -/
def Descriptor.isDeadline (d : Descriptor) : Bool := decide (d.kind = .deadline)

/-- R5: the directions that a sense selects. -/
def Sense.selects : Sense → Direction → Bool
  | .writes, .write => true
  | .writes, .read => false
  | .reads, .read => true
  | .reads, .write => false
  | .both, _ => true

/-- R5: the address lies in the watched range and the direction is selected. -/
def Descriptor.watches (d : Descriptor) (addr : Addr) (dir : Direction) : Bool :=
  decide (d.base ≤ addr) && decide (addr ≤ d.limit) && d.sense.selects dir

/-- R6: the value agrees with the reference wherever the mask holds a one. -/
def Descriptor.conforming (d : Descriptor) (value : Word) : Bool :=
  decide (value &&& d.mask = d.reference &&& d.mask)

/-- R6: the two values disagree in a bit where the mask holds a one. -/
def Descriptor.differs (d : Descriptor) (a b : Word) : Bool :=
  decide (a &&& d.mask ≠ b &&& d.mask)

/-- Start values of the runtime fields (Table 1-3). -/
def Descriptor.startValues (d : Descriptor) : Runtime where
  shadow := 0
  remaining := if d.isDeadline || d.isTotal then d.reload.toNat else 0
  allowance := if d.isRate then d.reload.toNat else 0
  windowLeft := if d.isRate then d.window.toNat else 0
  windowTripped := false
  excess := 0
  lapseTick := 0
  spared := false

/-! ## Entries -/

/-- The entry is shadow-bearing; an EMPTY entry is not. -/
def Entry.shadowBearing (e : Entry) : Bool := e.desc.any Descriptor.shadowBearing

/-- The class of the entry's events (R121). -/
def Entry.cls (e : Entry) : ClassNo := (e.desc.map Descriptor.cls).getD 0

/-- The word that a shadow-bearing entry watches. -/
def Entry.base (e : Entry) : Addr := (e.desc.map Descriptor.base).getD 0

/-- The entry in the state given, with every runtime field at its start value (R7). -/
def Entry.restarted (e : Entry) (state : EntryState) : Entry :=
  { e with state := state, rt := (e.desc.map Descriptor.startValues).getD Runtime.zero }

/-- R8: the shadow is valid exactly when the entry is shadow-bearing and ARMED. -/
def Entry.shadowValid (e : Entry) : Bool := e.shadowBearing && decide (e.state = .armed)

/-- R27: the conforming flag of an ARMED CONDITION entry, clear for any other. -/
def Entry.conformingFlag (e : Entry) : Bool :=
  decide (e.state = .armed) && e.desc.any fun d => decide (d.kind = .condition) && d.conforming e.rt.shadow

/-- R30: the states in which an entry can cover a beat. -/
def EntryState.watching : EntryState → Bool
  | .armed | .lapsed | .pending | .fetching => true
  | .empty | .loaded => false

/-- R30: PENDING or FETCHING, waiting for a shadow. -/
def EntryState.waiting : EntryState → Bool
  | .pending | .fetching => true
  | .empty | .loaded | .armed | .lapsed => false

/-- R30: the entry covers a beat of this address and direction. -/
def Entry.covers (e : Entry) (addr : Addr) (dir : Direction) : Bool :=
  e.state.watching && e.desc.any fun d => d.watches addr dir

/-- R30: a blocking entry of the beat. -/
def Entry.blocks (e : Entry) (addr : Addr) (dir : Direction) : Bool :=
  e.state.waiting && e.covers addr dir

/-! ## The walk over the table -/

/-- Changes every entry, each with its index, the first having index i. -/
def mapFrom (f : Nat → Entry → Entry) : Nat → List Entry → List Entry
  | _, [] => []
  | i, e :: es => f i e :: mapFrom f (i + 1) es

/-- Collects what every entry contributes, in ascending index, the first having index i. -/
def collectFrom {α : Type} (f : Nat → Entry → List α) : Nat → List Entry → List α
  | _, [] => []
  | i, e :: es => f i e ++ collectFrom f (i + 1) es

/-- The indexes of the entries that pass the test, ascending. -/
def indexesOf (p : Entry → Bool) (es : List Entry) : List Nat :=
  collectFrom (fun i e => if p e then [i] else []) 0 es

/-- The entry of an index; EMPTY outside the table. -/
def entryAt (es : List Entry) (i : Nat) : Entry := es.getD i Entry.empty

/-! ## Merged values -/

/-- The bits of the strobed lanes: lane 0 is bits 7 to 0, lane 3 bits 31 to 24 (R36). -/
def laneBits (strobes : Lanes) : Word :=
  (if strobes.getLsbD 3 then 0xFF#8 else 0#8) ++ (if strobes.getLsbD 2 then 0xFF#8 else 0#8) ++
    (if strobes.getLsbD 1 then 0xFF#8 else 0#8) ++ (if strobes.getLsbD 0 then 0xFF#8 else 0#8)

/-- R36: the shadow with each strobed lane replaced by the same lane of the data. -/
def merged (shadow data : Word) (strobes : Lanes) : Word :=
  (data &&& laneBits strobes) ||| (shadow &&& ~~~laneBits strobes)

/-! ## Verdicts (R37 to R43) -/

/-- What one entry makes of one beat: the entry with its counts moved, the kind of event of a trip, and the action it
applies. -/
structure Verdict where
  entry : Entry
  trip : Option EventKind
  action : Option Action
deriving DecidableEq, Repr

/-- The verdict that moves nothing, trips nothing and applies nothing. -/
def Verdict.none (e : Entry) : Verdict := ⟨e, Option.none, Option.none⟩

/-- R38: trips when the shadow is conforming and the merged value is not. -/
def judgeCondition (d : Descriptor) (e : Entry) (op : BeatOp) : Verdict :=
  match op with
  | .read => .none e
  | .write data strobes =>
    if d.conforming e.rt.shadow && !d.conforming (merged e.rt.shadow data strobes) then
      ⟨e, some .conditionBroken, some d.action⟩
    else .none e

/-- R39: whether the beat qualifies for a covering COUNT entry. -/
def qualifies (d : Descriptor) (e : Entry) (op : BeatOp) : Bool :=
  if d.changeOnly then
    match op with
    | .read => false
    | .write data strobes => d.differs (merged e.rt.shadow data strobes) e.rt.shadow
  else true

/-- R40: decrements remaining, and at zero trips and reloads. -/
def judgeTotal (d : Descriptor) (e : Entry) : Verdict :=
  if 1 < e.rt.remaining then .none { e with rt := { e.rt with remaining := e.rt.remaining - 1 } }
  else ⟨{ e with rt := { e.rt with remaining := d.reload.toNat } }, some .countExhausted, some d.action⟩

/-- An increase that saturates at 65535 (00_scope.md 0.5). -/
def saturatingSucc (n : Nat) : Nat := min (n + 1) 65535

/-- R41: within the allowance, the first access beyond it, or a further one. -/
def judgeRate (d : Descriptor) (e : Entry) : Verdict :=
  if 0 < e.rt.allowance then .none { e with rt := { e.rt with allowance := e.rt.allowance - 1 } }
  else if e.rt.windowTripped then
    ⟨{ e with rt := { e.rt with excess := saturatingSucc e.rt.excess } }, Option.none, some d.action⟩
  else ⟨{ e with rt := { e.rt with windowTripped := true } }, some .rateExceeded, some d.action⟩

/-- R40 and R41: the verdict of a COUNT entry on a qualifying beat. -/
def judgeCount (d : Descriptor) (e : Entry) : Verdict :=
  match d.countMode with
  | .total => judgeTotal d e
  | .rate => judgeRate d e

/-- R37: the verdict of one entry on one beat; an entry that is not an acting entry, and a DEADLINE entry (R43), gives
none. -/
def Entry.judge (e : Entry) (addr : Addr) (op : BeatOp) : Verdict :=
  match e.desc with
  | none => .none e
  | some d =>
    if decide (e.state = .armed) && e.covers addr op.dir then
      match d.kind with
      | .condition => judgeCondition d e op
      | .deadline => .none e
      | .count => if qualifies d e op then judgeCount d e else .none e
    else .none e

/-- R44: the most severe action applied. -/
def dispositionOf (actions : List Action) : Disposition :=
  if actions.contains .reject then .rejected else if actions.contains .drop then .dropped else .passed

/-- The lanes field of an event of a beat: present for a write. -/
def BeatOp.lanes : BeatOp → Option Lanes
  | .read => none
  | .write _ strobes => some strobes

/-- The direction as a detail: 0 write, 1 read. -/
def BeatOp.detail : BeatOp → BitVec 16
  | .read => 1
  | .write _ _ => 0

/-- R45: the event of a verdict that tripped. CONDITION_BROKEN carries the shadow and the merged value, the others the
direction as detail. -/
def tripEvent (kind : EventKind) (i : Nat) (e : Entry) (addr : Addr) (op : BeatOp) (now : TickCount)
    (disposition : Disposition) : Event :=
  match kind, op with
  | .conditionBroken, .write data strobes =>
    { kind, cls := e.cls, tick := now, entry := some i, address := some addr, lanes := some strobes,
      old := some e.rt.shadow, new := some (merged e.rt.shadow data strobes), disposition := some disposition }
  | _, _ =>
    { kind, cls := e.cls, tick := now, entry := some i, address := some addr, lanes := op.lanes,
      disposition := some disposition, detail := some op.detail }

/-- The actions that the verdicts on a beat apply. -/
def actionsOn (es : List Entry) (addr : Addr) (op : BeatOp) : List Action :=
  collectFrom (fun _ e => (e.judge addr op).action.toList) 0 es

/-- R45: the events of one decision, in ascending index. -/
def decisionEvents (es : List Entry) (addr : Addr) (op : BeatOp) (now : TickCount) (disposition : Disposition) :
    List Event :=
  collectFrom (fun i e => ((e.judge addr op).trip.map fun k => tripEvent k i e addr op now disposition).toList) 0 es

/-- R37: the table after the verdicts on a beat. -/
def judged (es : List Entry) (addr : Addr) (op : BeatOp) : List Entry :=
  mapFrom (fun _ e => (e.judge addr op).entry) 0 es

/-! ## Completion effects (R47 to R51) -/

/-- R22: the ticks since the lapse, saturating at 65535. -/
def lapseLength (now lapse : TickCount) : BitVec 16 := BitVec.ofNat 16 (min (now - lapse).toNat 65535)

/-- An ARMED shadow-bearing entry whose word is w. -/
def Entry.shadowsWord (e : Entry) (w : Addr) : Bool := e.shadowValid && decide (e.base = w)

/-- R50: the entry compares the data of a read of word w with its shadow, and they differ. -/
def Entry.diverges (e : Entry) (w : Addr) (data : Word) : Bool :=
  e.shadowsWord w && e.desc.any Descriptor.readBack && decide (data ≠ e.rt.shadow)

/-- R48: the DEADLINE entry that the completing beat keeps alive, ARMED or LAPSED. -/
def Entry.followsBeat (e : Entry) (addr : Addr) (dir : Direction) : Bool :=
  e.covers addr dir && e.desc.any Descriptor.isDeadline

/-- R48, R22: a DEADLINE entry after the completion of a beat that it follows: ARMED, remaining at reload, and spared by the
coming tick (R49). -/
def Entry.followed (e : Entry) : Entry :=
  { e.restarted .armed with rt := { (e.restarted .armed).rt with spared := true } }

/-- One entry after the completion of a PASSED beat at memory, data being the word read. -/
def Entry.completed (e : Entry) (mode : PartMode) (addr : Addr) (op : BeatOp) (data : Word) : Entry :=
  match op with
  | .write wdata strobes =>
    if e.shadowsWord addr then { e with rt := { e.rt with shadow := merged e.rt.shadow wdata strobes } }
    else if decide (mode = .monitoring) && e.followsBeat addr .write then e.followed
    else e
  | .read =>
    if decide (mode = .monitoring) && e.diverges addr data then { e with rt := { e.rt with shadow := data } }
    else if decide (mode = .monitoring) && e.followsBeat addr .read then e.followed
    else e

/-- R50: whether a divergence took a CONDITION entry from conforming to not conforming. -/
def Entry.divergenceDetail (e : Entry) (data : Word) : BitVec 16 :=
  if e.desc.any fun d => decide (d.kind = .condition) && d.conforming e.rt.shadow && !d.conforming data then 1 else 0

/-- The event that one entry contributes to a completion: DEADLINE_RESUMED (R22) or READBACK_DIVERGED (R50). -/
def Entry.completionEvents (e : Entry) (i : Nat) (mode : PartMode) (addr : Addr) (op : BeatOp) (data : Word)
    (now : TickCount) : List Event :=
  if mode = .suspended then []
  else if decide (e.state = .lapsed) && e.followsBeat addr op.dir then
    [{ kind := .deadlineResumed, cls := e.cls, tick := now, entry := some i, address := some addr,
       detail := some (lapseLength now e.rt.lapseTick) }]
  else if decide (op = .read) && e.diverges addr data then
    [{ kind := .readbackDiverged, cls := e.cls, tick := now, entry := some i, address := some addr,
       old := some e.rt.shadow, new := some data, detail := some (e.divergenceDetail data) }]
  else []

/-! ## Tick work (R107, R111) -/

/-- The tick at hand lapses the entry: an ARMED DEADLINE entry whose remaining the decrement brings to 0 (R21, R107), unless
a completion precedes the tick (R22, R49, the last sentence of R107). -/
def Entry.lapsesAtTick (e : Entry) : Bool :=
  decide (e.state = .armed) && e.desc.any Descriptor.isDeadline && decide (e.rt.remaining ≤ 1) && !e.rt.spared

/-- The tick at hand opens a new window of the entry: an ARMED RATE entry whose window left the decrement brings to 0. -/
def Entry.opensWindowAtTick (e : Entry) : Bool :=
  decide (e.state = .armed) && e.desc.any Descriptor.isRate && decide (e.rt.windowLeft ≤ 1)

/-- One entry after a tick in MONITORING, now being the tick counter's new value. A new window gives the counting fields
their start values and leaves the shadow. A spared entry of reload 1 stays ARMED at the tick after its completion (R49), and
since remaining is 0 in LAPSED alone (R9) it stays at 1 (DEDUCED, log 18). -/
def Entry.ticked (e : Entry) (now : TickCount) : Entry :=
  match e.desc with
  | none => e
  | some d =>
    if e.state = .armed then
      if d.isDeadline then
        if e.lapsesAtTick then { e with state := .lapsed, rt := { e.rt with remaining := 0, lapseTick := now } }
        else { e with rt := { e.rt with remaining := max 1 (e.rt.remaining - 1), spared := false } }
      else if d.isRate then
        if e.opensWindowAtTick then
          { e with rt := { e.rt with allowance := d.reload.toNat, windowLeft := d.window.toNat, windowTripped := false,
                                     excess := 0 } }
        else { e with rt := { e.rt with windowLeft := e.rt.windowLeft - 1 } }
      else e
    else e

/-- R108: the DEADLINE_LAPSED events of a tick, in ascending index. -/
def lapseEvents (es : List Entry) (now : TickCount) : List Event :=
  collectFrom (fun i e =>
    if e.lapsesAtTick then [{ kind := .deadlineLapsed, cls := e.cls, tick := now, entry := some i }] else []) 0 es

end Sys2Proof.Machine
end

