-- ==== Sys2Proof/Machine/Events.lean ====
section
/-! DEFINITION. The event queue: taking an event, eviction and discard, acknowledgement (chapter 6). -/

namespace Sys2Proof.Machine

/-- Queue capacity (R125). -/
def queueCapacity : Nat := 32

/-- The class of a record. -/
def Record.cls (r : Record) : ClassNo := r.event.cls

/-- R126: the numerically greatest class among the records, 0 for none. -/
def greatestClass (rs : List Record) : ClassNo := rs.foldl (fun c r => max c r.cls) 0

/-- R126: the records without the one of class c appended last. -/
def removeLastOf (c : ClassNo) (rs : List Record) : List Record :=
  (rs.reverse.eraseP fun r => decide (r.cls = c)).reverse

/-- R123 to R127: an event taken: its number, then append, evict or discard; with the changes for the alert unit. The number
is the next one whatever the records carry: a record that outlives 65536 later numbers (R136) can come to share its number with
a new one, although R130 says that no two do (DESIGN CHOICE, log 20). -/
def EventQueue.takeEvent (q : EventQueue) (ev : Event) : EventQueue × List AlertChange :=
  let record : Record := ⟨q.next, ev⟩
  if q.records.length < queueCapacity then
    ({ q with records := q.records ++ [record], next := q.next + 1 }, [.appended ev.cls])
  else
    let g := greatestClass q.records
    if ev.cls < g then
      ({ q with records := removeLastOf g q.records ++ [record], next := q.next + 1 },
        [.removed g, .marked g, .appended ev.cls])
    else ({ q with next := q.next + 1 }, [.marked ev.cls])

/-- R123: one event taken by the queue, its outcome handed to the alert unit. -/
def State.raiseOne (s : State) (ev : Event) : State :=
  { s with queue := (s.queue.takeEvent ev).1, alerts := s.alerts.take (s.queue.takeEvent ev).2 }

/-- R123: a group of events taken whole, in order. -/
def State.raise (s : State) (group : List Event) : State := group.foldl State.raiseOne s

/-- R124: the last assigned sequence number L. -/
def EventQueue.lastAssigned (q : EventQueue) : Seq := q.next - 1

/-- R133, Table 6-5: s is ahead of every number assigned. The test asks nothing about the head: its own number is ahead when it
lies 32769 to 65535 steps behind L, although R136 and section 6.7 have that number remove the head (DESIGN CHOICE, log 23). -/
def EventQueue.ahead (q : EventQueue) (s : Seq) : Bool :=
  decide (1 ≤ (s - q.lastAssigned).toNat) && decide ((s - q.lastAssigned).toNat ≤ 32767)

/-- R134: the window test of a record against s. -/
def Record.atOrBefore (r : Record) (s : Seq) : Bool := decide ((s - r.sequence).toNat < 32768)

/-- R134: the records that ACK EVENTS removes, a run from the head. -/
def EventQueue.acknowledged (q : EventQueue) (s : Seq) : List Record := q.records.takeWhile fun r => r.atOrBefore s

/-- R134: an accepted ACK EVENTS; the removals are one outcome of the queue (R142). -/
def State.acknowledge (s : State) (number : Seq) : State :=
  { s with
    queue := { s.queue with records := s.queue.records.dropWhile fun r => r.atOrBefore number }
    alerts := s.alerts.take ((s.queue.acknowledged number).map fun r => .removed r.cls) }

/-- R140: the oldest sequence number, the next one when the queue is empty. -/
def EventQueue.oldest (q : EventQueue) : Seq :=
  match q.records with
  | [] => q.next
  | r :: _ => r.sequence

/-- R122: the class that the queue holds for a part event; entry events are not asked here. -/
def PartClasses.of (p : PartClasses) : EventKind → ClassNo
  | .hostReset => p.hostReset
  | .memoryError => p.memoryError
  | .memoryTimeout => p.memoryTimeout
  | .timebaseFallback => p.timebaseFallback
  | .conditionBroken | .countExhausted | .rateExceeded | .deadlineLapsed | .deadlineResumed | .readbackDiverged
  | .fetchFailed => 0

/-- A part event as the queue takes it now: class by assignment, tick, and the address and detail its kind carries. -/
def State.partEvent (s : State) (kind : EventKind) (address : Option Addr) (detail : Option (BitVec 16)) : Event :=
  { kind, cls := s.queue.classes.of kind, tick := s.time.tickCounter, address, detail }

end Sys2Proof.Machine
end

