-- ==== Sys2Proof/Machine/Operands.lean ====
section
/-! DEFINITION. The codes of the pins, and the bytes of the supervisor link: bits and byte order, CRC, status codes, the entry
descriptor, the event record and the report blocks (chapter 9). -/

namespace Sys2Proof.Machine

/-! ## Pin codes (R190) -/

/-- The level of HDIR and MDIR: high for a write. -/
def dirHigh : Direction → Bool
  | .write => true
  | .read => false

/-- The direction that a level of HDIR gives. -/
def dirOfLevel (high : Bool) : Direction := if high then .write else .read

/-- The code of a burst length on HLEN and MLEN. -/
def lengthCode : BurstLength → BitVec 2
  | .one => 0
  | .two => 1
  | .four => 2
  | .eight => 3

/-- The burst length that a code on HLEN gives. -/
def lengthOfCode (code : BitVec 2) : BurstLength :=
  if code = 0 then .one else if code = 1 then .two else if code = 2 then .four else .eight

/-! ## Bit order on the link: most significant bit first (R155) -/

/-- The eight bits of a byte as they pass on SDI and SDO. -/
def bitsOf (b : Byte) : List Bool :=
  [b.getLsbD 7, b.getLsbD 6, b.getLsbD 5, b.getLsbD 4, b.getLsbD 3, b.getLsbD 2, b.getLsbD 1, b.getLsbD 0]

/-- The byte that a row of bits forms, first bit most significant. -/
def byteOfBits (bits : List Bool) : Byte := bits.foldl (fun v bit => (v <<< 1) ||| (if bit then 1 else 0)) 0

/-! ## Byte order: most significant byte first (00_scope.md 0.5) -/

/-- The two bytes of a 16-bit field. -/
def bytes2 (v : BitVec 16) : List Byte := [v.extractLsb' 8 8, v.extractLsb' 0 8]

/-- The three bytes of a word address. -/
def bytes3 (v : Addr) : List Byte := [v.extractLsb' 16 8, v.extractLsb' 8 8, v.extractLsb' 0 8]

/-- The four bytes of a 32-bit field. -/
def bytes4 (v : Word) : List Byte := [v.extractLsb' 24 8, v.extractLsb' 16 8, v.extractLsb' 8 8, v.extractLsb' 0 8]

/-- The 16-bit field of two bytes. -/
def join2 (a b : Byte) : BitVec 16 := a ++ b

/-- The word address of three bytes. -/
def join3 (a b c : Byte) : Addr := a ++ b ++ c

/-- The 32-bit field of four bytes. -/
def join4 (a b c d : Byte) : Word := a ++ b ++ c ++ d

/-- A small number as a byte. -/
def byteOf (n : Nat) : Byte := BitVec.ofNat 8 n

/-- A small number as a 16-bit field. -/
def halfOf (n : Nat) : BitVec 16 := BitVec.ofNat 16 n

/-! ## CRC (R158) -/

/-- One shift of the CRC. -/
def crcShift (c : Byte) : Byte := if c.msb then (c <<< 1) ^^^ 0x07 else c <<< 1

/-- A byte taken into the CRC. -/
def crcByte (c b : Byte) : Byte :=
  crcShift (crcShift (crcShift (crcShift (crcShift (crcShift (crcShift (crcShift (c ^^^ b))))))))

/-- The CRC over a row of bytes, from FFh. -/
def crcOf (bs : List Byte) : Byte := bs.foldl crcByte 0xFF

/-! ## Enumerated fields (Table 9-1) -/

def EntryState.code : EntryState → Byte
  | .empty => 0
  | .loaded => 1
  | .pending => 2
  | .fetching => 3
  | .armed => 4
  | .lapsed => 5

def PartMode.code : PartMode → Byte
  | .monitoring => 0
  | .suspended => 1

def Kind.code : Kind → Byte
  | .condition => 1
  | .deadline => 2
  | .count => 3

def Sense.code : Sense → Byte
  | .writes => 1
  | .reads => 2
  | .both => 3

def Action.code : Action → Byte
  | .pass => 0
  | .drop => 1
  | .reject => 2

def CountMode.code : CountMode → BitVec 4
  | .total => 0
  | .rate => 1

def Disposition.code : Disposition → BitVec 2
  | .passed => 0
  | .dropped => 1
  | .rejected => 2

def Source.code : Source → Byte
  | .irc => 0
  | .refclk => 1

def Monitor.code : Monitor → Byte
  | .lost => 0
  | .running => 1

def LineMode.code : LineMode → Byte
  | .level => 0
  | .strobe => 1

/-- A flag as a byte: yes, OPEN, set and asserted are 01h. -/
def flagByte (b : Bool) : Byte := if b then 1 else 0

/-- A flag as a nibble. -/
def flagNibble (b : Bool) : BitVec 4 := if b then 1 else 0

/-- A class as a byte. -/
def classByte (c : ClassNo) : Byte := byteOf c.val

/-- A set of classes as a byte: bit c for class c. -/
def setByte (p : ClassNo → Bool) : Byte :=
  (0#4) ++ BitVec.ofBool (p 3) ++ BitVec.ofBool (p 2) ++ BitVec.ofBool (p 1) ++ BitVec.ofBool (p 0)

/-- The class that a byte names, if it lies in 0 to 3. -/
def classOfByte (b : Byte) : Option ClassNo :=
  if b = 0 then some 0 else if b = 1 then some 1 else if b = 2 then some 2 else if b = 3 then some 3 else none

/-- The yes or no that a byte names: no, CLOSED and LEVEL are 00h, yes, OPEN and STROBE 01h. -/
def flagOfByte (b : Byte) : Option Bool := if b = 0 then some false else if b = 1 then some true else none

def kindOfByte (b : Byte) : Option Kind :=
  if b = 1 then some .condition else if b = 2 then some .deadline else if b = 3 then some .count else none

def senseOfByte (b : Byte) : Option Sense :=
  if b = 1 then some .writes else if b = 2 then some .reads else if b = 3 then some .both else none

def actionOfByte (b : Byte) : Option Action :=
  if b = 0 then some .pass else if b = 1 then some .drop else if b = 2 then some .reject else none

def countModeOfNibble (n : BitVec 4) : Option CountMode :=
  if n = 0 then some .total else if n = 1 then some .rate else none

def flagOfNibble (n : BitVec 4) : Option Bool := if n = 0 then some false else if n = 1 then some true else none

def sourceOfByte (b : Byte) : Option Source := if b = 0 then some .irc else if b = 1 then some .refclk else none

def EventKind.code : EventKind → Byte
  | .conditionBroken => 0x01
  | .countExhausted => 0x02
  | .rateExceeded => 0x03
  | .deadlineLapsed => 0x04
  | .deadlineResumed => 0x05
  | .readbackDiverged => 0x06
  | .fetchFailed => 0x07
  | .hostReset => 0x08
  | .memoryError => 0x09
  | .memoryTimeout => 0x0A
  | .timebaseFallback => 0x0B

/-! ## The entry descriptor (R4, R187, Tables 1-2 and 9-5) -/

/-- The 24 bytes of a descriptor. -/
def Descriptor.bytes (d : Descriptor) : List Byte :=
  [d.kind.code, d.countMode.code ++ flagNibble d.changeOnly, d.sense.code, d.action.code, classByte d.cls] ++
    bytes3 d.base ++ bytes3 d.limit ++ bytes4 d.mask ++ bytes4 d.reference ++ bytes2 d.reload ++ bytes2 d.window ++
    [flagByte d.readBack]

/-- Field 4 passes (Table 1-2): WRITES where kind is CONDITION or change-only is yes. -/
def senseAllowed (kind : Kind) (changeOnly : Bool) (sense : Sense) : Bool :=
  decide (sense = .writes) || !(decide (kind = .condition) || changeOnly)

/-- Field 5 passes: PASS where kind is DEADLINE, not DROP where sense is READS or BOTH. -/
def actionAllowed (kind : Kind) (sense : Sense) (action : Action) : Bool :=
  (decide (kind ≠ .deadline) || decide (action = .pass)) && (decide (sense = .writes) || decide (action ≠ .drop))

/-- A field holds a value where it is used, a nonzero one, and zero where it is not. -/
def usedNonzero {w : Nat} (used : Bool) (v : BitVec w) : Bool := if used then decide (v ≠ 0) else decide (v = 0)

/-- R3: the conditions of Table 1-2 that bear on decoded fields; the others hold of every decoded field. -/
def Descriptor.valid (d : Descriptor) : Bool :=
  (decide (d.kind = .count) || decide (d.countMode = .total)) &&
  (decide (d.kind = .count) || !d.changeOnly) &&
  senseAllowed d.kind d.changeOnly d.sense &&
  actionAllowed d.kind d.sense d.action &&
  (decide (d.base ≤ d.limit) && (!(decide (d.kind = .condition) || d.changeOnly) || decide (d.limit = d.base))) &&
  usedNonzero d.shadowBearing d.mask &&
  (decide (d.kind = .condition) || decide (d.reference = 0)) &&
  usedNonzero (decide (d.kind ≠ .condition)) d.reload &&
  usedNonzero d.isRate d.window &&
  (d.shadowBearing || !d.readBack)

/-- Passes a field's check or answers its number. -/
def checkField (n : Nat) (passes : Bool) : Except Nat Unit := if passes then .ok () else .error n

/-- A field's code read, or its number answered. -/
def readField {α : Type} (n : Nat) (code : Option α) : Except Nat α :=
  match code with
  | some v => .ok v
  | none => .error n

/-- R4: the descriptor of 24 bytes, checked field by field in descriptor order; the first field that fails gives its
number. -/
def checkDescriptor (b : List Byte) : Except Nat Descriptor := do
  let at_ := fun i => b.getD i 0
  let kind ← readField 1 (kindOfByte (at_ 0))
  let countMode ← readField 2 (countModeOfNibble ((at_ 1).extractLsb' 4 4))
  checkField 2 (decide (kind = .count) || decide (countMode = .total))
  let changeOnly ← readField 3 (flagOfNibble ((at_ 1).extractLsb' 0 4))
  checkField 3 (decide (kind = .count) || !changeOnly)
  let sense ← readField 4 (senseOfByte (at_ 2))
  checkField 4 (senseAllowed kind changeOnly sense)
  let action ← readField 5 (actionOfByte (at_ 3))
  checkField 5 (actionAllowed kind sense action)
  let cls ← readField 6 (classOfByte (at_ 4))
  let base := join3 (at_ 5) (at_ 6) (at_ 7)
  let limit := join3 (at_ 8) (at_ 9) (at_ 10)
  checkField 8 (decide (base ≤ limit) && (!(decide (kind = .condition) || changeOnly) || decide (limit = base)))
  let mask := join4 (at_ 11) (at_ 12) (at_ 13) (at_ 14)
  let shadowBearing := decide (kind = .condition) || (decide (kind = .count) && changeOnly)
  checkField 9 (usedNonzero shadowBearing mask)
  let reference := join4 (at_ 15) (at_ 16) (at_ 17) (at_ 18)
  checkField 10 (decide (kind = .condition) || decide (reference = 0))
  let reload := join2 (at_ 19) (at_ 20)
  checkField 11 (usedNonzero (decide (kind ≠ .condition)) reload)
  let window := join2 (at_ 21) (at_ 22)
  checkField 12 (usedNonzero (decide (kind = .count) && decide (countMode = .rate)) window)
  let readBack ← readField 13 (flagOfByte (at_ 23))
  checkField 13 (shadowBearing || !readBack)
  return { kind, countMode, changeOnly, sense, action, cls, base, limit, mask, reference, reload, window, readBack }

/-! ## The event record (R188, Tables 9-6 and 9-7) -/

/-- The presence byte: bit 0 entry, 1 address, 2 lanes, 3 old, 4 new, 5 disposition, 6 detail. -/
def Event.presence (e : Event) : Byte :=
  (0#1) ++ BitVec.ofBool e.detail.isSome ++ BitVec.ofBool e.disposition.isSome ++ BitVec.ofBool e.new.isSome ++
    BitVec.ofBool e.old.isSome ++ BitVec.ofBool e.lanes.isSome ++ BitVec.ofBool e.address.isSome ++
    BitVec.ofBool e.entry.isSome

/-- Byte 13: disposition in bits 5 and 4, lanes in bits 3 to 0. -/
def Event.laneByte (e : Event) : Byte :=
  (0#2) ++ ((e.disposition.map Disposition.code).getD 0) ++ (e.lanes.getD 0)

/-- The 24 bytes of a record. -/
def Record.bytes (r : Record) : List Byte :=
  bytes2 r.sequence ++ [r.event.kind.code, classByte r.event.cls, byteOf (r.event.entry.getD 0), r.event.presence] ++
    bytes4 r.event.tick ++ bytes3 (r.event.address.getD 0) ++ [r.event.laneByte] ++ bytes4 (r.event.old.getD 0) ++
    bytes4 (r.event.new.getD 0) ++ bytes2 (r.event.detail.getD 0)

/-! ## Responses (R164, R186, Table 9-3) -/

/-- What the check of a frame answers. -/
inductive Reply where
  | ok (payload : List Byte)
  | badFrame
  | badCommand
  | badIndex
  | badState (state : EntryState)
  | badParam (field : Nat)
  | badSeq (last : Seq)
  | badMode (mode : PartMode)
  | noClock (monitor : Monitor)
deriving DecidableEq, Repr

/-- The status byte. -/
def Reply.status : Reply → Byte
  | .ok _ => 0x01
  | .badFrame => 0x81
  | .badCommand => 0x82
  | .badIndex => 0x83
  | .badState _ => 0x84
  | .badParam _ => 0x85
  | .badSeq _ => 0x86
  | .badMode _ => 0x87
  | .noClock _ => 0x88

/-- The response payload. -/
def Reply.payload : Reply → List Byte
  | .ok payload => payload
  | .badFrame | .badCommand | .badIndex => []
  | .badState state => [state.code]
  | .badParam field => [byteOf field]
  | .badSeq last => bytes2 last
  | .badMode mode => [mode.code]
  | .noClock monitor => [monitor.code]

/-- The response frame: status, length m, payload, CRC over the three (R158, R161). -/
def Reply.frame (r : Reply) : List Byte :=
  let body := r.status :: byteOf r.payload.length :: r.payload
  body ++ [crcOf body]

/-- The IDENTIFY payload (R165, R186): part code 1C48h, revision 01h, 48 entries, 32 records, 8 requests, 4 classes. -/
def identity : List Byte := [0x1C, 0x48, 0x01, 0x30, 0x20, 0x08, 0x04]

/-- The status block (R166, R189, Table 9-8). -/
def State.statusBlock (s : State) : List Byte :=
  [s.mode.code, byteOf s.queue.records.length] ++ bytes2 s.queue.oldest ++ bytes2 s.queue.next ++
    [setByte s.alerts.marks, setByte s.alerts.lines, byteOf s.port.list.length, s.time.source.code] ++
    bytes2 s.time.divisor ++ bytes4 s.time.tickCounter ++ [s.time.monitor.code]

/-- The request of an entry that is not orphaned (R59). -/
def requestOf (list : List FetchRequest) (i : Nat) : Option FetchRequest :=
  list.find? fun r => decide (r.entry = i) && !r.orphaned

/-- The fetch request status of an entry: 0 no request, 1 QUEUED, 2 ISSUED; 0 for an entry that is not FETCHING (R189). -/
def State.requestStatus (s : State) (i : Nat) : BitVec 2 :=
  if (entryAt s.entries i).state = .fetching then
    match requestOf s.port.list i with
    | none => 0
    | some r => if r.status = .issued then 2 else 1
  else 0

/-- The flags byte of the entry block (Table 9-9). -/
def State.entryFlags (s : State) (i : Nat) : Byte :=
  let e := entryAt s.entries i
  (0#3) ++ s.requestStatus i ++ BitVec.ofBool e.rt.windowTripped ++ BitVec.ofBool e.conformingFlag ++
    BitVec.ofBool e.shadowValid

/-- The entry block (R27, R172, R189, Table 9-9). -/
def State.entryBlock (s : State) (i : Nat) : List Byte :=
  let e := entryAt s.entries i
  [byteOf i, e.state.code, s.entryFlags i] ++ ((e.desc.map Descriptor.bytes).getD (List.replicate 24 0)) ++
    bytes4 (if e.shadowValid then e.rt.shadow else 0) ++ bytes2 (halfOf e.rt.remaining) ++
    bytes2 (halfOf e.rt.allowance) ++ bytes2 (halfOf e.rt.windowLeft) ++ bytes2 (halfOf e.rt.excess) ++
    bytes4 e.rt.lapseTick

/-- The READ EVENTS payload: the count and the first n records (R131). -/
def State.eventBlock (s : State) (k : Nat) : List Byte :=
  byteOf (min k s.queue.records.length) :: ((s.queue.records.take k).map Record.bytes).flatten

/-- The SET CLASS payload: class, mask, mode, strobe length, missed mark, line (Table 9-4). -/
def State.classBlock (s : State) (c : ClassNo) : List Byte :=
  let k := s.alerts.get c
  [classByte c, flagByte k.maskOpen, k.mode.code, byteOf k.strobeLength, flagByte k.missed, flagByte k.line]

/-- The SET PART CLASSES payload: the four assignments in the order of the request. -/
def PartClasses.bytes (p : PartClasses) : List Byte :=
  [classByte p.hostReset, classByte p.memoryError, classByte p.memoryTimeout, classByte p.timebaseFallback]

/-- The SUSPEND and RESUME payload: part mode and fetch list occupancy (Table 9-4). -/
def State.modeBlock (s : State) : List Byte := [s.mode.code, byteOf s.port.list.length]

end Sys2Proof.Machine
end

