-- ==== Sys2Proof/Machine/Ops.lean ====
section
/-! DEFINITION. The shared operations of the part over its whole state: answers, the decision of a beat, the fetch list and
arbiter, the end of an access, ticks and the monitor, the supervisor reset, and the check of a request frame. -/

namespace Sys2Proof.Machine

/-- The state with no output: every step begins so (log 7). -/
def State.quiet (s : State) : State := { s with out := .none }

/-! ## Answers (R81, R83) -/

/-- R78, R83, R90, R92: the host port takes requests and beats and gives answers: initialisation has ended and HRSTN is
high. -/
def State.hostPortOpen (s : State) : Bool := decide (s.power = .running) && !s.pins.hrstnLow

/-- R85: the course that the answer of the current beat leaves: CUT after a REJECTED beat. -/
def Transaction.courseAfterAnswer (t : Transaction) : Course :=
  if t.current.any fun b => decide (b.state = .decided .rejected) then .cut else t.course

/-- The transaction after its current beat is answered: one more beat answered, no current beat; none at the last beat. -/
def Transaction.afterAnswer (t : Transaction) : Option Transaction :=
  if t.answered + 1 = t.len.beats then none
  else some { t with answered := t.answered + 1, course := t.courseAfterAnswer, current := none, held := none }

/-- R83: the host port comes to hold the answer of the current beat. -/
def State.hold (s : State) (a : HostAnswer) : State := { s with host := s.host.map fun t => { t with held := some a } }

/-- The answer that the host port holds. -/
def State.heldAnswer (s : State) : Option HostAnswer :=
  match s.host with
  | none => none
  | some t => t.held

/-- R83: the host port gives the answer that it holds. -/
def State.giveAnswer (s : State) : State :=
  match s.host with
  | none => s
  | some t =>
    if t.held.isSome && s.hostPortOpen then { s with host := t.afterAnswer, out := { s.out with answer := t.held } } else s

/-- The state as a command finds it that names an event at an edge of BCLK: no output but the answer that the host port held,
which is given at that edge (R83, log 13). -/
def State.atBclk (s : State) : State := s.quiet.giveAnswer

/-! ## The fetch list (R59 to R62) -/

/-- Fetch list capacity. -/
def listCapacity : Nat := 8

/-- The fetch list has room (R10, R59). -/
def State.hasRoom (s : State) : Bool := decide (s.port.list.length < listCapacity)

/-- The entry of an index. -/
def State.entry (s : State) (i : Nat) : Entry := entryAt s.entries i

/-- The table with one entry replaced. -/
def State.setEntry (s : State) (i : Nat) (e : Entry) : State := { s with entries := s.entries.set i e }

/-- R10: the entry enters FETCHING and its request joins the list at the tail, QUEUED and not orphaned. -/
def State.placeRequest (s : State) (i : Nat) : State :=
  { s with
    entries := s.entries.set i { s.entry i with state := .fetching }
    port := { s.port with list := s.port.list ++ [⟨i, (s.entry i).base, .queued, false⟩] } }

/-- R12, R19: a shadow-bearing entry sets out to obtain its shadow: every runtime field at its start value, FETCHING when
the list has room, else PENDING. -/
def State.beginFetch (s : State) (i : Nat) : State :=
  let s1 := s.setEntry i ((s.entry i).restarted .pending)
  if s.hasRoom then s1.placeRequest i else s1

/-- R62: the entry gives up its fetch: a QUEUED request is removed, an ISSUED one is orphaned. Requests already orphaned are
left. -/
def giveUp (i : Nat) (list : List FetchRequest) : List FetchRequest :=
  (list.filter fun r => !(decide (r.entry = i) && decide (r.status = .queued))).map fun r =>
    if r.entry = i then { r with orphaned := true } else r

/-- R60, R61: the promoted group, the QUEUED requests of the blocking entries in ascending index, stands behind the ISSUED
request and ahead of the other QUEUED requests, which keep their order. -/
def promoted (blocking : List Nat) (list : List FetchRequest) : List FetchRequest :=
  let queued := list.filter fun r => decide (r.status = .queued)
  list.filter (fun r => decide (r.status = .issued)) ++
    blocking.flatMap (fun i => queued.filter fun r => decide (r.entry = i)) ++
    queued.filter fun r => !blocking.contains r.entry

/-- The promotion made while a hold lasts (R32, R61). -/
def State.promote (s : State) : State :=
  match s.checker with
  | none => s
  | some d => { s with port := { s.port with list := promoted d.blocking s.port.list } }

/-- The blocking entries of the held beat; none when no beat is held. -/
def State.blocking (s : State) : List Nat :=
  match s.checker with
  | none => []
  | some d => d.blocking

/-- R14: the PENDING entries in the order in which they take places: those that cover a held beat first. -/
def State.pendingInOrder (s : State) : List Nat :=
  let waiting := indexesOf (fun e => decide (e.state = .pending)) s.entries
  waiting.filter (fun i => s.blocking.contains i) ++ waiting.filter fun i => !s.blocking.contains i

/-- R14: in MONITORING, PENDING entries take the free places of the list. -/
def State.fill (s : State) : State :=
  if s.mode = .monitoring then
    ((s.pendingInOrder.take (listCapacity - s.port.list.length)).foldl State.placeRequest s).promote
  else s

/-! ## The arbiter (R67, R68) -/

/-- Table 3-1: the kind granted, from the kinds that wait and the last grant. -/
def arbiterChoice (waits1 waits2 waits3 : Bool) (last : Option GrantKind) : Option GrantKind :=
  if waits1 then some .kind1
  else if waits2 && waits3 then (if last = some .kind3 then some .kind2 else some .kind3)
  else if waits2 then some .kind2
  else if waits3 then some .kind3
  else none

/-- The PASSED beat that waits for the bus (R57). -/
def State.waitingBeat (s : State) : Option Beat :=
  match s.host with
  | none => none
  | some t => t.current.filter fun b => decide (b.state = .decided .passed)

/-- The head of the fetch list, when it is QUEUED. -/
def State.queuedHead (s : State) : Option FetchRequest :=
  s.port.list.head?.filter fun r => decide (r.status = .queued)

/-- The kind that the arbiter grants when the bus is free. -/
def State.choice (s : State) : Option GrantKind :=
  let head1 := s.queuedHead.any fun r => s.blocking.contains r.entry
  arbiterChoice head1 s.waitingBeat.isSome (s.queuedHead.isSome && !head1) s.port.lastGrant

/-- R63: the head request is issued and its access begins. -/
def State.issueHead (s : State) (kind : GrantKind) : State :=
  match s.port.list with
  | [] => s
  | r :: rest =>
    { s with port := ⟨{ r with status := .issued } :: rest, some ⟨.fetch, r.addr, .read, 1⟩, some kind⟩ }

/-- The current beat in another beat state. -/
def State.setBeatState (s : State) (st : BeatState) : State :=
  { s with host := s.host.map fun t => { t with current := t.current.map fun b => { b with state := st } } }

/-- R57, R67: the waiting beat is granted and becomes AT MEMORY. -/
def State.issueBeat (s : State) : State :=
  match s.waitingBeat with
  | none => s
  | some b =>
    { (s.setBeatState .atMemory) with
      port := { s.port with bus := some ⟨.host true, b.addr, b.op, 1⟩, lastGrant := some .kind2 } }

/-- R67: the arbiter grants the bus when it is free and work waits. The access begins in the step of the grant, in its first
period (R56), and only an edge of BCLK that passes in an idle step adds a period to an access on the bus: that a command of the
host or memory bus, which names an event at such an edge, counts no period of it is the model's choice (DESIGN CHOICE,
log 3). -/
def State.grant (s : State) : State :=
  match s.port.bus with
  | some _ => s
  | none =>
    match s.choice with
    | none => s
    | some .kind1 => s.issueHead .kind1
    | some .kind2 => s.issueBeat
    | some .kind3 => s.issueHead .kind3

/-! ## The decision of a beat (R28 to R35, R44 to R46) -/

/-- Table 4-2: the answer that the host port makes alone of a disposition; a PASSED beat is answered by memory. -/
def Disposition.ownAnswer : Disposition → Option HostAnswer
  | .passed => none
  | .dropped => some .completionOk
  | .rejected => some .error

/-- R46, R81, R85: the beat is DECIDED: a PASSED one waits for the bus, and the answer of a DROPPED or REJECTED one is
held. -/
def State.dispose (s : State) (d : Disposition) : State :=
  match d.ownAnswer with
  | none => s.setBeatState (.decided d)
  | some a => (s.setBeatState (.decided d)).hold a

/-- R37, R44, R45: the decision of a beat in MONITORING. -/
def State.decideBeat (s : State) (addr : Addr) (op : BeatOp) : State :=
  let disposition := dispositionOf (actionsOn s.entries addr op)
  (({ s with checker := none, entries := judged s.entries addr op }).raise
    (decisionEvents s.entries addr op s.time.tickCounter disposition)).dispose disposition

/-- The indexes of the entries that cover a beat. -/
def coveringOf (es : List Entry) (addr : Addr) (dir : Direction) : List Nat := indexesOf (fun e => e.covers addr dir) es

/-- The indexes of the blocking entries of a beat. -/
def blockingOf (es : List Entry) (addr : Addr) (dir : Direction) : List Nat := indexesOf (fun e => e.blocks addr dir) es

/-- R31, R34, R35, R53: the checker examines the beat that is TAKEN or HELD: SUSPENDED passes it unchecked, blocking
entries hold it, and otherwise it is decided. -/
def State.examineBeat (s : State) (b : Beat) : State :=
  if s.mode = .suspended then State.dispose { s with checker := none } .passed
  else
    let blocking := blockingOf s.entries b.addr b.op.dir
    if blocking = [] then s.decideBeat b.addr b.op
    else ({ (s.setBeatState .held) with checker := some ⟨coveringOf s.entries b.addr b.op.dir, blocking⟩ }).promote

/-- The beat before the checker: the current beat of a NORMAL course while it is TAKEN or HELD (R81, R84, R85). -/
def State.beatAtChecker (s : State) : Option Beat :=
  match s.host with
  | none => none
  | some t =>
    t.current.filter fun b =>
      decide (t.course = .normal) && (decide (b.state = .taken) || decide (b.state = .held))

/-- The checker examines the beat before it, if there is one. -/
def State.examine (s : State) : State :=
  match s.beatAtChecker with
  | none => s
  | some b => s.examineBeat b

/-- R64: what follows any change to the entries, the list or the beats: the hold is examined again, free places are filled,
and the arbiter grants. -/
def State.settle (s : State) : State := s.examine.fill.grant

/-! ## Taking a beat (R78, R79, R84, R85) -/

/-- What a beat does, sampled from the host lines: a read samples nothing further. -/
def beatOp (dir : Direction) (data : Word) (strobes : Lanes) : BeatOp :=
  match dir with
  | .read => .read
  | .write => .write data strobes

/-- The next beat of a transaction (R79). Its word address start + k − 1 is taken modulo 2^24: past FFFFFFh, where a beat of a
REFUSED burst can lie, the manual gives no value (DESIGN CHOICE, log 21). -/
def Transaction.nextBeat (t : Transaction) (data : Word) (strobes : Lanes) : Beat :=
  ⟨t.answered + 1, t.start + BitVec.ofNat 24 t.answered, beatOp t.dir data strobes, .taken⟩

/-- R79: the next beat of the transaction is taken: presented to the checker in a NORMAL course, to be answered ERROR by the
host port alone in a REFUSED or CUT one. -/
def State.takeBeat (s : State) (t : Transaction) (data : Word) (strobes : Lanes) : State :=
  let s1 := { s with host := some { t with current := some (t.nextBeat data strobes), held := none } }
  match t.course with
  | .normal => s1.settle
  | .refused | .cut => s1.hold .error

/-- R78, R84: the course of a new transaction. -/
def courseOf (start : Addr) (len : BurstLength) : Course :=
  if 0xFFFFFF < start.toNat + len.beats - 1 then .refused else .normal

/-! ## The end of an access (R56, R64, R65, R70 to R74) -/

/-- How an access ends (R56). -/
inductive AccessEnd where
  | completion (data : Word)
  | memoryError
  | responseLimit
deriving DecidableEq, Repr

/-- The answer of a host access that completed. -/
def answerOf (op : BeatOp) (data : Word) : HostAnswer :=
  match op with
  | .read => .dataOk data
  | .write _ _ => .completionOk

/-- The answer handed to the host port, discarded when a host reset has come (R70, R89). -/
def State.deliver (s : State) (wanted : Bool) (a : HostAnswer) : State := if wanted then s.hold a else s

/-- R47 to R51: the completion effects of a PASSED beat. -/
def State.complete (s : State) (addr : Addr) (op : BeatOp) (data : Word) : State :=
  ({ s with entries := mapFrom (fun _ e => e.completed s.mode addr op data) 0 s.entries }).raise
    (collectFrom (fun i e => e.completionEvents i s.mode addr op data s.time.tickCounter) 0 s.entries)

/-- R20, R71: after a failed write to word w, each ARMED shadow-bearing entry on w returns to fetch, in ascending index. -/
def State.returnToFetch (s : State) (w : Addr) (op : BeatOp) : State :=
  match op with
  | .read => s
  | .write _ _ => (indexesOf (fun e => e.shadowsWord w) s.entries).foldl State.beginFetch s

/-- R71, R72: a host access that failed: the ERROR answer and the event, then the return to fetch. -/
def State.failHost (s : State) (wanted : Bool) (kind : EventKind) (addr : Addr) (op : BeatOp) : State :=
  ((s.deliver wanted .error).raise [s.partEvent kind (some addr) (some op.detail)]).returnToFetch addr op

/-- The end of a host access. -/
def State.endHost (s : State) (wanted : Bool) (addr : Addr) (op : BeatOp) : AccessEnd → State
  | .completion data => (s.complete addr op data).deliver wanted (answerOf op data)
  | .memoryError => s.failHost wanted .memoryError addr op
  | .responseLimit => s.failHost wanted .memoryTimeout addr op

/-- R16, R73: FETCH_FAILED of a request. -/
def State.fetchFailed (s : State) (r : FetchRequest) (detail : BitVec 16) : Event :=
  { kind := .fetchFailed, cls := (s.entry r.entry).cls, tick := s.time.tickCounter, entry := some r.entry,
    address := some r.addr, detail := some detail }

/-- R16, R73: the entry of a failed fetch becomes LOADED. -/
def State.failFetch (s : State) (r : FetchRequest) (detail : BitVec 16) : State :=
  (s.setEntry r.entry ((s.entry r.entry).restarted .loaded)).raise [s.fetchFailed r detail]

/-- R15: the entry of a completed fetch becomes ARMED with the word read as its shadow. -/
def State.armFetched (s : State) (i : Nat) (data : Word) : State :=
  let e := (s.entry i).restarted .armed
  s.setEntry i { e with rt := { e.rt with shadow := data } }

/-- R64, R65: the end of the ISSUED request: it leaves the list, and its outcome reaches its entry unless it is orphaned. -/
def State.endFetch (s : State) (result : AccessEnd) : State :=
  match s.port.list with
  | [] => s
  | r :: rest =>
    let s1 := { s with port := { s.port with list := rest } }
    if r.orphaned then s1
    else
      match result with
      | .completion data => s1.armFetched r.entry data
      | .memoryError => s1.failFetch r 1
      | .responseLimit => s1.failFetch r 2

/-- The access on the bus ends, and everything that follows; nothing without an access (R55). -/
def State.endAccess (s : State) (result : AccessEnd) : State :=
  match s.port.bus with
  | none => s
  | some a =>
    let s1 := { s with port := { s.port with bus := none } }
    match a.owner with
    | .host wanted => (s1.endHost wanted a.addr a.op result).settle
    | .fetch => (s1.endFetch result).settle
    | .strayFetch => s1.settle

/-! ## Time base (R97 to R102, R107, R111, R145) -/

/-- The divider and the monitor count, which they do once the power-up reset has ended (R115). -/
def State.clocked (s : State) : Bool := decide (s.power ≠ .powerUpReset)

/-- The alert unit's tick. -/
def State.alertTick (s : State) : State := { s with alerts := s.alerts.ticked }

/-- R97, R98: the tick counter grows and the divider count returns to 0. -/
def State.countTick (s : State) : State :=
  { s with time := { s.time with dividerCount := 0, tickCounter := s.time.tickCounter + 1 } }

/-- The lapses of the tick at hand, the tick counter having its new value; none in SUSPENDED (R113). -/
def State.tickEvents (s : State) : List Event :=
  if s.mode = .monitoring then lapseEvents s.entries s.time.tickCounter else []

/-- The entries after the tick at hand (R107, R111); unchanged in SUSPENDED (R113). -/
def State.tickEntries (s : State) : List Entry :=
  if s.mode = .monitoring then mapFrom (fun _ e => e.ticked s.time.tickCounter) 0 s.entries else s.entries

/-- The alert unit as the tick finds it: before or after it takes the tick's records. -/
def State.atAlertTick (s : State) (order : TickOrder) : State :=
  match order with
  | .alertFirst => s
  | .recordsFirst => s.raise s.tickEvents

/-- R99: one tick, handed to the watch table and to the alert unit. R145 lets a start and the tick reach a class in either
order; the model takes one order for all records of the tick and for all classes, so the alert unit's tick never falls
between two records of one group (DESIGN CHOICE, log 5). -/
def State.tickOnce (s : State) (order : TickOrder) : State :=
  let s1 := s.countTick
  let s2 := { s1 with entries := s1.tickEntries }
  match order with
  | .alertFirst => s2.alertTick.raise s1.tickEvents
  | .recordsFirst => (s2.raise s1.tickEvents).alertTick

/-- R97: one period of the selected source; the one that completes the divisor is a tick. With a divisor of 1 the first period
after a restart completes it, as R97 and R105 have it, although the last row of R106 says that the first period after SET
TIMEBASE makes no tick (DESIGN CHOICE, log 22). -/
def State.sourcePeriod (s : State) (order : TickOrder) : State :=
  if s.time.divisor.toNat ≤ s.time.dividerCount + 1 then s.tickOnce order
  else { s with time := { s.time with dividerCount := s.time.dividerCount + 1 } }

/-- R102: fallback to IRC. -/
def State.fallBack (s : State) : State :=
  { s with time := { s.time with source := .irc, dividerCount := 0 } }.raise
    [s.partEvent .timebaseFallback none none]

/-- R100: the gap count reaches 64. -/
def State.gapExpires (s : State) : State :=
  let s1 := { s with time := { s.time with gap := 64, run := 0, monitor := .lost } }
  if s.time.monitor = .running ∧ s.time.source = .refclk then s1.fallBack else s1

/-- R101: the monitor at a REFCLK edge. -/
def TimeBase.edge (t : TimeBase) : TimeBase :=
  match t.monitor with
  | .running => { t with gap := 0 }
  | .lost =>
    let run := if t.gap < 64 then t.run + 1 else 1
    if run = 16 then { t with gap := 0, run := 0, monitor := .running } else { t with gap := 0, run := run }

/-- A REFCLK edge: the monitor takes it, and it is a source period while REFCLK is the source (R96). -/
def State.refclkEdge (s : State) (order : TickOrder) : State :=
  let s1 := { s with time := s.time.edge }
  if s.time.source = .refclk then s1.sourcePeriod order else s1

/-- An IRC period: a source period while IRC is the source, and one more in the monitor's gap count (R97, R100). The period
at which the monitor falls back is not counted by the divider (log 9). -/
def State.ircPeriod (s : State) (order : TickOrder) : State :=
  let s1 := if s.time.source = .irc then s.sourcePeriod order else s
  if s1.time.gap < 63 then { s1 with time := { s1.time with gap := s1.time.gap + 1 } }
  else if s1.time.gap = 63 then s1.gapExpires
  else s1

/-! ## Resets and start-up -/

/-- What becomes of the access on the bus at a supervisor reset: a fetch goes on without its request (R62, R74). -/
def Access.afterSupervisorReset (a : Access) : Access :=
  match a.owner with
  | .host _ => a
  | .fetch | .strayFetch => { a with owner := .strayFetch }

/-- A supervisor reset of the blocks (R2, R58, R138, R153): time base, host port and link keep their state; a beat that is
TAKEN or HELD is then decided against the empty table (R29, R93). -/
def State.supervisorReset (s : State) : State :=
  { s with
    mode := .monitoring
    entries := resetEntries
    port := ⟨[], s.port.bus.map Access.afterSupervisorReset, none⟩
    queue := .reset
    alerts := .reset }.settle

/-- R92, R181, R190: initialisation ends; a select period in progress is placed in TRAILING, and 00h is sent from there. -/
def State.endInitialisation (s : State) : State :=
  { s with
    power := .running
    pins := { s.pins with sdo := if s.pins.csnLow then some false else none }
    link := if s.pins.csnLow then { Link.idle with phase := .trailing } else .idle }

/-- The access on the bus left by a host reset: its answer is discarded at its end (R89, R90). -/
def Access.afterHostReset (a : Access) : Access :=
  match a.owner with
  | .host _ => { a with owner := .host false }
  | .fetch | .strayFetch => a

/-- R83, R89, R91: a host reset: HOST_RESET is raised, the transaction is discarded with its beat, the decision in progress
and an answer that is held, and an access at memory goes on without its answer. -/
def State.hostResetTaken (s : State) : State :=
  let event :=
    match s.host with
    | none => s.partEvent .hostReset none (some 0)
    | some t => s.partEvent .hostReset (some t.start) (some 1)
  { (s.raise [event]) with
    host := none
    checker := none
    port := { s.port with bus := s.port.bus.map Access.afterHostReset } }

/-! ## The reset pins (R88, R182, R190) -/

/-- The link at a fall of SRSTN (R182): the frame in progress is discarded, reset pending is cleared, and a select period in
progress goes on in TRAILING, its bytes counted as they were. -/
def Link.afterSrstnFall (l : Link) (csnLow : Bool) : Link :=
  if csnLow then { Link.idle with phase := .trailing, position := l.position, bits := l.bits } else .idle

/-- SRSTN is taken low, the level alone. -/
def Pins.srstnFalls (p : Pins) : Pins := { p with srstnLow := true, srstnSample := true }

/-- HRSTN is taken low, the level alone. -/
def Pins.hrstnFalls (p : Pins) : Pins := { p with hrstnLow := true, hrstnSample := true }

/-- A fall of SRSTN is taken (R182, R190): a supervisor reset; before initialisation has ended the level alone changes. SDO
keeps its bit until the next falling edge of SCK. -/
def State.takeSrstnFall (s : State) : State :=
  match s.power with
  | .powerUpReset => s
  | .initialising _ => { s with pins := s.pins.srstnFalls }
  | .running =>
    { s.supervisorReset with pins := s.pins.srstnFalls, link := s.link.afterSrstnFall s.pins.csnLow }

/-- A rise of SRSTN is taken: select periods that begin afterwards are taken (R182). -/
def State.takeSrstnRise (s : State) : State :=
  { s with pins := { s.pins with srstnLow := false, srstnSample := false } }

/-- A fall of HRSTN is taken (R88 to R91, R190): a host reset; before initialisation has ended the level alone changes. -/
def State.takeHrstnFall (s : State) : State :=
  match s.power with
  | .powerUpReset => s
  | .initialising _ => { s with pins := s.pins.hrstnFalls }
  | .running => { s.hostResetTaken with pins := s.pins.hrstnFalls }

/-- A rise of HRSTN is taken: the host port takes requests again (R90). -/
def State.takeHrstnRise (s : State) : State :=
  { s with pins := { s.pins with hrstnLow := false, hrstnSample := false } }

/-- R190: SRSTN is sampled at an edge of BCLK; a change is taken when the new level has been sampled at two edges in a
row. -/
def State.sampleSrstn (s : State) (low : Bool) : State :=
  if low = s.pins.srstnSample ∧ low ≠ s.pins.srstnLow then (if low then s.takeSrstnFall else s.takeSrstnRise)
  else { s with pins := { s.pins with srstnSample := low } }

/-- R190: HRSTN is sampled at an edge of BCLK, in the same way. -/
def State.sampleHrstn (s : State) (low : Bool) : State :=
  if low = s.pins.hrstnSample ∧ low ≠ s.pins.hrstnLow then (if low then s.takeHrstnFall else s.takeHrstnRise)
  else { s with pins := { s.pins with hrstnSample := low } }

/-! ## An edge of BCLK -/

/-- One BCLK period: the 16th edge of initialisation ends it (R190); the 1024th period of an access without an answer ends
the access (R56). -/
def State.bclkPeriod (s : State) : State :=
  match s.power with
  | .powerUpReset => s
  | .initialising n => if n + 1 < 16 then { s with power := .initialising (n + 1) } else s.endInitialisation
  | .running =>
    match s.port.bus with
    | none => s
    | some a =>
      if a.period < 1024 then { s with port := { s.port with bus := some { a with period := a.period + 1 } } }
      else s.endAccess .responseLimit

/-- The three things that an edge of BCLK does: it samples SRSTN, samples HRSTN, and counts a period. -/
inductive EdgeWork where
  | srstn | hrstn | period
deriving DecidableEq, Repr

/-- The six orders in which they can come. -/
def edgeOrder : Fin 6 → List EdgeWork
  | 0 => [.srstn, .hrstn, .period]
  | 1 => [.hrstn, .srstn, .period]
  | 2 => [.srstn, .period, .hrstn]
  | 3 => [.hrstn, .period, .srstn]
  | 4 => [.period, .srstn, .hrstn]
  | 5 => [.period, .hrstn, .srstn]

/-- One of the three, with the levels that the edge finds at the pins. -/
def State.edgeWork (srstnLow hrstnLow : Bool) (s : State) : EdgeWork → State
  | .srstn => s.sampleSrstn srstnLow
  | .hrstn => s.sampleHrstn hrstnLow
  | .period => s.bclkPeriod

/-- R190: an edge of BCLK that finds HRSTN at this level takes a fall of it. -/
def State.takesHrstnFallAt (s : State) (hrstnLow : Bool) : Bool := hrstnLow && s.pins.hrstnSample && !s.pins.hrstnLow

/-- A rising edge of BCLK, in the order given; it does nothing while the power-up reset lasts (R190). An answer that the host
port holds as the edge comes is given, unless a host reset taken at the edge discards it (R83, log 13). -/
def State.bclkEdge (s : State) (srstnLow hrstnLow : Bool) (order : Fin 6) : State :=
  if s.power = .powerUpReset then s
  else (edgeOrder order).foldl (State.edgeWork srstnLow hrstnLow) (if s.takesHrstnFallAt hrstnLow then s else s.giveAnswer)

/-! ## The check of a request frame (R157 to R160) -/

/-- The bytes of the frame received so far. -/
def Link.received (l : Link) : List Byte :=
  match l.position with
  | 0 => []
  | 1 => [l.code]
  | _ => l.code :: l.length :: l.payload

/-- The bytes of the frame of this code and payload that its CRC covers. -/
def frameBody (code : Byte) (payload : List Byte) : List Byte := code :: byteOf payload.length :: payload

/-- The byte in progress can be this one: the bits sampled so far begin it (R155). -/
def Link.canBe (l : Link) (byte : Byte) : Bool := l.bits.isPrefixOf (bitsOf byte)

/-- The frame of this code and payload can be the one in progress: the link is in REQUEST, and the bytes and bits received
so far begin the frame (log 6). -/
def Link.awaits (l : Link) (code : Byte) (payload : List Byte) : Bool :=
  decide (l.phase = .request) && decide (payload.length ≤ maxPayload) &&
    l.received.isPrefixOf (frameBody code payload) &&
    l.canBe ((frameBody code payload).getD l.received.length (crcOf (frameBody code payload)))

/-- The link just after the check of a frame: the response is held, the phase is TURNAROUND (R159). -/
def Link.checked (l : Link) (code : Byte) (payload : List Byte) (reply : Reply) : Link :=
  { phase := .turnaround, position := payload.length + 3, code, length := byteOf payload.length, payload,
    crc := crcOf (frameBody code payload), response := reply.frame, resetPending := l.resetPending, bits := [] }

/-- R155: only the rising edge of SCK that samples its eighth bit is left of the byte in progress. -/
def State.atLastRise (s : State) : Bool := decide (s.link.bits.length = 7) && !s.pins.sckHigh

/-- R155: the pins at the rising edge of SCK that ends a byte: SCK high, SDO at the bit that the falling edge before it put
there. Where that edge has passed SDO stays; else it comes with the rest of the byte and puts the last bit of the byte sent. -/
def State.pinsAfter (s : State) (sent : Byte) : Pins :=
  { s.pins with sckHigh := true, sdo := if s.atLastRise then s.pins.sdo else some (sent.getLsbD 0) }

/-- R155: a byte has been received and sent, and the link is as given. -/
def State.byteDone (s : State) (l : Link) (sent : Byte) : State :=
  { s with link := l, pins := s.pinsAfter sent, out := { s.out with sdo := some sent } }

/-- The frame is answered; the bytes of REQUEST are sent as 00h (R157). -/
def State.respond (s : State) (code : Byte) (payload : List Byte) (reply : Reply) : State :=
  s.byteDone (s.link.checked code payload reply) 0

/-- R159, R160: a frame whose CRC matches is checked: its length against the request's, then the request's own checks and
its performance. A frame that cannot be the one in progress is not taken (log 1). -/
def State.serve (s : State) (code : Byte) (length : Nat) (payload : List Byte) (perform : State → State × Reply) : State :=
  if s.link.awaits code payload then
    if payload.length = length then (perform s).1.respond code payload (perform s).2
    else s.respond code payload (.badParam 0)
  else s

/-- R160, check 3: an entry request, whose first payload byte is the index. -/
def State.serveEntry (s : State) (code : Byte) (length : Nat) (payload : List Byte)
    (perform : Nat → State → State × Reply) : State :=
  s.serve code length payload fun s =>
    if (payload.getD 0 0).toNat < entryCount then perform (payload.getD 0 0).toNat s else (s, .badIndex)

/-- The OK response of an entry request: the entry's state just after. -/
def State.entryReply (s : State) (i : Nat) : Reply := .ok [(s.entry i).state.code]

/-- The position at which the frame in the link was checked: 2 over length, else the CRC byte's (R157). -/
def Link.checkedAt (l : Link) : Nat := if maxPayload < l.length.toNat then 2 else l.length.toNat + 3

/-- Position held at 240 (Table 8-1). -/
def nextPosition (n : Nat) : Nat := min (n + 1) 240

end Sys2Proof.Machine
end

