-- ==== Sys2Proof/Machine/EntryRequests.lean ====
section
/-! DEFINITION. The six entry requests: LOAD_ENTRY, ARM_ENTRY, DISARM_ENTRY, CLEAR_ENTRY, RESYNC_ENTRY, QUERY_ENTRY. -/

namespace Sys2Proof.Machine

/-- R11, R167: the state test, then the descriptor checks, then the load. -/
def State.load (bytes : List Byte) (i : Nat) (s : State) : State × Reply :=
  if (s.entry i).state = .empty ∨ (s.entry i).state = .loaded then
    match checkDescriptor bytes with
    | .error field => (s, .badParam field)
    | .ok d =>
      let s1 := s.setEntry i ⟨.loaded, some d, d.startValues⟩
      (s1, s1.entryReply i)
  else (s, .badState (s.entry i).state)

/-- LOAD_ENTRY (R167). -/
def execLoadEntry (payload : List Byte) (s : State) : Host.Outcome State Fault Refusal :=
  .next (s.quiet.serveEntry 0x10 25 payload (State.load (payload.drop 1)))

/-- R12, R13, R168: arming a LOADED entry. -/
def State.arm (i : Nat) (s : State) : State × Reply :=
  if (s.entry i).state = .loaded then
    let s1 :=
      if (s.entry i).shadowBearing then
        (if s.mode = .monitoring then s.beginFetch i else s.setEntry i ((s.entry i).restarted .pending))
      else s.setEntry i ((s.entry i).restarted .armed)
    (s1.settle, s1.settle.entryReply i)
  else (s, .badState (s.entry i).state)

/-- ARM_ENTRY (R168). -/
def execArmEntry (payload : List Byte) (s : State) : Host.Outcome State Fault Refusal :=
  .next (s.quiet.serveEntry 0x11 1 payload State.arm)

/-- R17, R62: the entry gives up its fetch request. -/
def State.giveUpFetch (s : State) (i : Nat) : State := { s with port := { s.port with list := giveUp i s.port.list } }

/-- R17, R169: disarming a watching entry. -/
def State.disarm (i : Nat) (s : State) : State × Reply :=
  if (s.entry i).state.watching then
    let s1 := ((s.giveUpFetch i).setEntry i ((s.entry i).restarted .loaded)).settle
    (s1, s1.entryReply i)
  else (s, .badState (s.entry i).state)

/-- DISARM_ENTRY (R17, R169). -/
def execDisarmEntry (payload : List Byte) (s : State) : Host.Outcome State Fault Refusal :=
  .next (s.quiet.serveEntry 0x12 1 payload State.disarm)

/-- R18: clearing an entry in any state; a watching one gives up its fetch and any held beat is examined again. -/
def State.clear (i : Nat) (s : State) : State × Reply :=
  let s1 :=
    if (s.entry i).state.watching then ((s.giveUpFetch i).setEntry i Entry.empty).settle else s.setEntry i Entry.empty
  (s1, s1.entryReply i)

/-- CLEAR_ENTRY (R18, R169). -/
def execClearEntry (payload : List Byte) (s : State) : Host.Outcome State Fault Refusal :=
  .next (s.quiet.serveEntry 0x13 1 payload State.clear)

/-- R19, R170: an ARMED shadow-bearing entry returns to fetch. -/
def State.resync (i : Nat) (s : State) : State × Reply :=
  if (s.entry i).shadowValid then
    let s1 := (s.beginFetch i).settle
    (s1, s1.entryReply i)
  else (s, .badState (s.entry i).state)

/-- RESYNC_ENTRY (R19, R170). -/
def execResyncEntry (payload : List Byte) (s : State) : Host.Outcome State Fault Refusal :=
  .next (s.quiet.serveEntry 0x14 1 payload State.resync)

/-- R27, R172: the entry block. -/
def State.query (i : Nat) (s : State) : State × Reply := (s, .ok (s.entryBlock i))

/-- QUERY_ENTRY (R172). -/
def execQueryEntry (payload : List Byte) (s : State) : Host.Outcome State Fault Refusal :=
  .next (s.quiet.serveEntry 0x15 1 payload State.query)

end Sys2Proof.Machine
end

