-- ==== Sys2Proof/Machine/HostTraffic.lean ====
section
/-! DEFINITION. The commands of host and memory bus: TRANSACTION_REQUEST_TAKEN, BEAT_TAKEN, MEMORY_READY, RESPONSE_LIMIT. Each
names an event at an edge of BCLK, at which the host port gives an answer that it holds (log 13); none adds a period to an
access on the bus (DESIGN CHOICE, log 3). -/

namespace Sys2Proof.Machine

/-- TRANSACTION_REQUEST_TAKEN (R78, R79, R84, R190): the request and its first beat are taken; not while a transaction is in
progress, HRSTN is low or initialisation has not ended. The answer that ends the transaction before is given first where it
is still held (log 13). -/
def execTransactionRequestTaken (start : Addr) (hdir : Bool) (hlen : BitVec 2) (data : Word) (strobes : Lanes)
    (s : State) : Host.Outcome State Fault Refusal :=
  let s1 := s.atBclk
  if s.hostPortOpen && s1.host.isNone then
    let len := lengthOfCode hlen
    .next (s1.takeBeat ⟨start, dirOfLevel hdir, len, 0, courseOf start len, none, none⟩ data strobes)
  else .next s1

/-- BEAT_TAKEN (R79): the next beat of the transaction in progress. The answer of the one before is given first where it is
still held (log 13). -/
def execBeatTaken (data : Word) (strobes : Lanes) (s : State) : Host.Outcome State Fault Refusal :=
  let s1 := s.atBclk
  match s1.host with
  | none => .next s1
  | some t => if s.hostPortOpen && t.current.isNone then .next (s1.takeBeat t data strobes) else .next s1

/-- MEMORY_READY (R55, R56): memory's answer ends the access on the bus, and a host beat's answer is then held; without an
access it is ignored. An answer held before is given. -/
def execMemoryReady (data : Word) (error : Bool) (s : State) : Host.Outcome State Fault Refusal :=
  .next (s.atBclk.endAccess (if error then .memoryError else .completion data))

/-- RESPONSE_LIMIT (R56): the access on the bus ends without an answer of memory. An answer held before is given. -/
def execResponseLimit (s : State) : Host.Outcome State Fault Refusal :=
  .next (s.atBclk.endAccess .responseLimit)

end Sys2Proof.Machine
end

