-- ==== Sys2Proof/Machine/LinkBytes.lean ====
section
/-! DEFINITION. The commands of the link below its requests: CSN_FALL, CSN_RISE, REQUEST_BYTE_RECEIVED, RESPONSE_BYTE_SENT,
BAD_FRAME, BAD_COMMAND. -/

namespace Sys2Proof.Machine

/-- CSN_FALL (R155, R157, R181, R182): a select period begins, in REQUEST; in TRAILING while SRSTN is low; not taken before
initialisation has ended. SDO shows the first bit of the 00h that either phase sends. -/
def execCsnFall (s : State) : Host.Outcome State Fault Refusal :=
  if s.pins.csnLow then .next s.quiet
  else
    match s.power with
    | .powerUpReset | .initialising _ => .next { s.quiet with pins := { s.pins with csnLow := true } }
    | .running =>
      .next { s.quiet with
        pins := { s.pins with csnLow := true, sdo := some false }
        link := { Link.idle with phase := if s.pins.srstnLow then .trailing else .request } }

/-- CSN_RISE (R155, R162, R179): the select period ends, an unchecked frame, an unsent response and the bits of a part byte
are lost, SDO is released, and a pending RESET PART is performed. -/
def execCsnRise (s : State) : Host.Outcome State Fault Refusal :=
  if s.pins.csnLow then
    let s1 := { s.quiet with pins := { s.pins with csnLow := false, sdo := none }, link := .idle }
    if s.link.resetPending then .next s1.supervisorReset else .next s1
  else .next s.quiet

/-- The link can take this byte in REQUEST: the bits sampled so far begin it. -/
def Link.takesByte (l : Link) (byte : Byte) : Bool := decide (l.phase = .request) && l.canBe byte

/-- The link after a byte that does not end the frame: the code, a valid length or a payload byte (R157). None when the byte
would end it. -/
def Link.receive (l : Link) (byte : Byte) : Option Link :=
  let l1 := { l with position := l.position + 1, crc := crcByte l.crc byte, bits := [] }
  match l.position with
  | 0 => some { l1 with code := byte }
  | 1 => if byte.toNat ≤ maxPayload then some { l1 with length := byte } else none
  | _ => if l.position < l.length.toNat + 2 then some { l1 with payload := l.payload ++ [byte] } else none

/-- REQUEST_BYTE_RECEIVED (R157): taken in REQUEST; 00h is sent meanwhile. -/
def execRequestByteReceived (byte : Byte) (s : State) : Host.Outcome State Fault Refusal :=
  if s.link.takesByte byte then
    match s.link.receive byte with
    | some l => .next (s.quiet.byteDone l 0)
    | none => .next s.quiet
  else .next s.quiet

/-- The number of response bytes sent (R161). -/
def Link.sentCount (l : Link) : Nat := l.position - (l.checkedAt + 1)

/-- The byte that the link is sending: a response byte in RESPONSE, 00h in every other phase that drives SDO (Table 8-2). -/
def Link.sending (l : Link) : Byte :=
  match l.phase with
  | .response => l.response.getD l.sentCount 0
  | .idle | .request | .turnaround | .trailing => 0

/-- The link after a byte sent after the check, and the byte (R161). None outside TURNAROUND, RESPONSE and TRAILING. -/
def Link.send (l : Link) : Option (Link × Byte) :=
  let l1 := { l with position := nextPosition l.position, bits := [] }
  match l.phase with
  | .idle | .request => none
  | .turnaround => some ({ l1 with phase := .response }, l.sending)
  | .response =>
    if l.sentCount + 1 < l.response.length then some (l1, l.sending)
    else some ({ l1 with phase := .trailing, response := [] }, l.sending)
  | .trailing => some (l1, l.sending)

/-- RESPONSE_BYTE_SENT (R161). -/
def execResponseByteSent (s : State) : Host.Outcome State Fault Refusal :=
  match s.link.send with
  | some (l, byte) => .next (s.quiet.byteDone l byte)
  | none => .next s.quiet

/-- The link after a byte that ends the frame as bad: a length above 40 (R157), or a CRC byte that differs from the running
CRC (R159). None when the byte does neither. -/
def Link.refuseFrame (l : Link) (byte : Byte) : Option Link :=
  let l1 := { l with phase := .turnaround, position := l.position + 1, response := Reply.badFrame.frame, bits := [] }
  match l.position with
  | 0 => none
  | 1 => if maxPayload < byte.toNat then some { l1 with length := byte, crc := crcByte l.crc byte } else none
  | _ => if l.position = l.length.toNat + 2 ∧ byte ≠ l.crc then some l1 else none

/-- BAD_FRAME (R159): the response is BAD_FRAME and nothing is performed. -/
def execBadFrame (byte : Byte) (s : State) : Host.Outcome State Fault Refusal :=
  if s.link.takesByte byte then
    match s.link.refuseFrame byte with
    | some l => .next (s.quiet.byteDone l 0)
    | none => .next s.quiet
  else .next s.quiet

/-- BAD_COMMAND (R160, check 1): the code names no request of Table 9-2. -/
def execBadCommand (code : Byte) (payload : List Byte) (s : State) : Host.Outcome State Fault Refusal :=
  if s.link.awaits code payload && !requestCodes.contains code then .next (s.quiet.respond code payload .badCommand)
  else .next s.quiet

end Sys2Proof.Machine
end

