-- ==== Sys2Proof/Machine/PartRequests.lean ====
section
/-! DEFINITION. The other requests of the link: IDENTIFY, READ_STATUS, SUSPEND, RESUME, READ_EVENTS, ACK_EVENTS, SET_CLASS,
CLEAR_MISSED, SET_PART_CLASSES, SET_TIMEBASE, RESET_PART. -/

namespace Sys2Proof.Machine

/-- IDENTIFY (R165). -/
def execIdentify (payload : List Byte) (s : State) : Host.Outcome State Fault Refusal :=
  .next (s.quiet.serve 0x01 0 payload fun s => (s, .ok identity))

/-- READ_STATUS (R166). -/
def execReadStatus (payload : List Byte) (s : State) : Host.Outcome State Fault Refusal :=
  .next (s.quiet.serve 0x02 0 payload fun s => (s, .ok s.statusBlock))

/-! ## Part mode (R23 to R26, R173) -/

/-- R24: one entry at SUSPEND. -/
def Entry.suspended (e : Entry) : Entry :=
  if e.shadowBearing then
    match e.state with
    | .armed => e.restarted .pending
    | .fetching => { e with state := .pending }
    | .empty | .loaded | .pending | .lapsed => e
  else e

/-- R24, R62: the fetch list at SUSPEND: QUEUED requests removed, the ISSUED one orphaned. -/
def suspendedList (list : List FetchRequest) : List FetchRequest :=
  (list.filter fun r => decide (r.status = .issued)).map fun r => { r with orphaned := true }

/-- R24, R35, R173: SUSPEND, with the release of a held beat. -/
def State.suspendPart (s : State) : State × Reply :=
  if s.mode = .monitoring then
    let s1 :=
      { s with
        mode := .suspended
        entries := mapFrom (fun _ e => e.suspended) 0 s.entries
        port := { s.port with list := suspendedList s.port.list } }.settle
    (s1, .ok s1.modeBlock)
  else (s, .badMode s.mode)

/-- SUSPEND (R24, R173). -/
def execSuspend (payload : List Byte) (s : State) : Host.Outcome State Fault Refusal :=
  .next (s.quiet.serve 0x20 0 payload State.suspendPart)

/-- R26, R173: RESUME. -/
def State.resumePart (s : State) : State × Reply :=
  if s.mode = .suspended then
    let s1 := { s with mode := .monitoring }.settle
    (s1, .ok s1.modeBlock)
  else (s, .badMode s.mode)

/-- RESUME (R26, R173). -/
def execResume (payload : List Byte) (s : State) : Host.Outcome State Fault Refusal :=
  .next (s.quiet.serve 0x21 0 payload State.resumePart)

/-! ## Event queue (R131 to R135, R174, R175) -/

/-- R131, R174: READ EVENTS of k records. -/
def State.read (k : Byte) (s : State) : State × Reply :=
  if 1 ≤ k.toNat ∧ k.toNat ≤ 8 then (s, .ok (s.eventBlock k.toNat)) else (s, .badParam 1)

/-- READ_EVENTS (R174). -/
def execReadEvents (payload : List Byte) (s : State) : Host.Outcome State Fault Refusal :=
  .next (s.quiet.serve 0x30 1 payload (State.read (payload.getD 0 0)))

/-- R133, R134, R175: ACK EVENTS of number. -/
def State.ack (number : Seq) (s : State) : State × Reply :=
  if s.queue.ahead number then (s, .badSeq s.queue.lastAssigned)
  else
    let s1 := s.acknowledge number
    (s1, .ok [byteOf (s.queue.acknowledged number).length, byteOf s1.queue.records.length])

/-- ACK_EVENTS (R133, R175). -/
def execAckEvents (payload : List Byte) (s : State) : Host.Outcome State Fault Refusal :=
  .next (s.quiet.serve 0x31 2 payload (State.ack (join2 (payload.getD 0 0) (payload.getD 1 0))))

/-! ## Alert unit (R148 to R151, R176) -/

/-- The line mode that a flag names. -/
def lineModeOf (strobe : Bool) : LineMode := if strobe then .strobe else .level

/-- R148, R149, R176: SET CLASS; its fields checked in order. -/
def State.configureClass (fields : List Byte) (s : State) : State × Reply :=
  match classOfByte (fields.getD 0 0) with
  | none => (s, .badParam 1)
  | some c =>
    match flagOfByte (fields.getD 1 0) with
    | none => (s, .badParam 2)
    | some maskOpen =>
      match flagOfByte (fields.getD 2 0) with
      | none => (s, .badParam 3)
      | some strobe =>
        if 1 ≤ (fields.getD 3 0).toNat ∧ (fields.getD 3 0).toNat ≤ 15 then
          let k := (s.alerts.get c).configured maskOpen (lineModeOf strobe) (fields.getD 3 0).toNat
          let s1 := { s with alerts := s.alerts.set c k }
          (s1, .ok (s1.classBlock c))
        else (s, .badParam 4)

/-- SET_CLASS (R149, R176). -/
def execSetClass (payload : List Byte) (s : State) : Host.Outcome State Fault Refusal :=
  .next (s.quiet.serve 0x40 4 payload (State.configureClass payload))

/-- R151, R176: CLEAR MISSED of a set of classes. -/
def State.clearMarks (set : Byte) (s : State) : State × Reply :=
  if set.extractLsb' 4 4 = 0 then
    let s1 := { s with alerts := s.alerts.clearMissed (set.extractLsb' 0 4) }
    (s1, .ok [setByte s1.alerts.marks, setByte s1.alerts.lines])
  else (s, .badParam 1)

/-- CLEAR_MISSED (R151, R176). -/
def execClearMissed (payload : List Byte) (s : State) : Host.Outcome State Fault Refusal :=
  .next (s.quiet.serve 0x41 1 payload (State.clearMarks (payload.getD 0 0)))

/-! ## Part-event classes (R122, R177) -/

/-- R122, R177: SET PART CLASSES; its fields checked in order. -/
def State.assignClasses (fields : List Byte) (s : State) : State × Reply :=
  match classOfByte (fields.getD 0 0), classOfByte (fields.getD 1 0), classOfByte (fields.getD 2 0),
    classOfByte (fields.getD 3 0) with
  | none, _, _, _ => (s, .badParam 1)
  | some _, none, _, _ => (s, .badParam 2)
  | some _, some _, none, _ => (s, .badParam 3)
  | some _, some _, some _, none => (s, .badParam 4)
  | some a, some b, some c, some d =>
    let s1 := { s with queue := { s.queue with classes := ⟨a, b, c, d⟩ } }
    (s1, .ok s1.queue.classes.bytes)

/-- SET_PART_CLASSES (R122, R177). -/
def execSetPartClasses (payload : List Byte) (s : State) : Host.Outcome State Fault Refusal :=
  .next (s.quiet.serve 0x42 4 payload (State.assignClasses payload))

/-! ## Time base (R103 to R105, R178) -/

/-- R103: the divisor's check. -/
def divisorAllowed (source : Source) (divisor : BitVec 16) : Bool :=
  match source with
  | .irc => decide (1 ≤ divisor.toNat)
  | .refclk => decide (25 ≤ divisor.toNat)

/-- R105: the source and divisor taken, the divider restarted. -/
def TimeBase.select (t : TimeBase) (source : Source) (divisor : BitVec 16) : TimeBase :=
  { t with source, divisor, dividerCount := 0 }

/-- R103, R104, R105, R178: SET TIMEBASE. -/
def State.selectTimebase (code : Byte) (divisor : BitVec 16) (s : State) : State × Reply :=
  match sourceOfByte code with
  | none => (s, .badParam 1)
  | some source =>
    if divisorAllowed source divisor then
      if source = .refclk ∧ s.time.monitor = .lost then (s, .noClock s.time.monitor)
      else
        let s1 := { s with time := s.time.select source divisor }
        (s1, .ok (s1.time.source.code :: bytes2 s1.time.divisor))
    else (s, .badParam 2)

/-- SET_TIMEBASE (R105, R178). -/
def execSetTimebase (payload : List Byte) (s : State) : Host.Outcome State Fault Refusal :=
  .next (s.quiet.serve 0x50 3 payload
    (State.selectTimebase (payload.getD 0 0) (join2 (payload.getD 1 0) (payload.getD 2 0))))

/-! ## Reset (R179) -/

/-- RESET_PART (R179): OK is answered and reset pending is set; the reset comes at the rise of CSN. -/
def execResetPart (payload : List Byte) (s : State) : Host.Outcome State Fault Refusal :=
  .next (s.quiet.serve 0x60 0 payload fun s => ({ s with link := { s.link with resetPending := true } }, .ok []))

end Sys2Proof.Machine
end

