-- ==== Sys2Proof/Machine/Resets.lean ====
section
/-! DEFINITION. The commands of power and reset: POWER_UP, POWER_UP_RESET_END, INITIALISATION_END, SRSTN_FALL, SRSTN_RISE,
HOST_RESET, HRSTN_RISE. A change of SRSTN is taken at an edge of BCLK, at which the host port gives an answer that it holds
(log 13); INITIALISATION_END and HRSTN_RISE find none held. -/

namespace Sys2Proof.Machine

/-- POWER_UP (R92, R58, R115, R137, R152, R181): every block takes its power-up values; the transaction is dropped without
an answer and the access on the bus is abandoned. CSN and SCK keep their levels, which are the supervisor's. -/
def execPowerUp (s : State) : Host.Outcome State Fault Refusal :=
  .next { State.reset with pins := .atPowerUp s.pins.csnLow s.pins.sckHigh, idles := s.idles, pending := s.pending }

/-- POWER_UP_RESET_END (R190, R115): initialisation begins, and SRSTN and HRSTN are taken high. -/
def execPowerUpResetEnd (s : State) : Host.Outcome State Fault Refusal :=
  match s.power with
  | .powerUpReset =>
    .next { s.quiet with power := .initialising 0, pins := .atPowerUp s.pins.csnLow s.pins.sckHigh }
  | .initialising _ | .running => .next s.quiet

/-- INITIALISATION_END (R190, R92, R181). -/
def execInitialisationEnd (s : State) : Host.Outcome State Fault Refusal :=
  match s.power with
  | .initialising _ => .next s.quiet.endInitialisation
  | .powerUpReset | .running => .next s.quiet

/-- SRSTN_FALL (R182, R190): not while SRSTN is low already. -/
def execSrstnFall (s : State) : Host.Outcome State Fault Refusal :=
  if s.pins.srstnLow then .next s.atBclk else .next s.atBclk.takeSrstnFall

/-- SRSTN_RISE (R182, R190): not while SRSTN is high already. -/
def execSrstnRise (s : State) : Host.Outcome State Fault Refusal :=
  if s.pins.srstnLow then .next s.atBclk.takeSrstnRise else .next s.atBclk

/-- HOST_RESET (R88 to R91, R190): a taken fall of HRSTN; not while HRSTN is low already. -/
def execHostReset (s : State) : Host.Outcome State Fault Refusal :=
  if s.pins.hrstnLow then .next s.quiet else .next s.quiet.takeHrstnFall

/-- HRSTN_RISE (R90, R190): not while HRSTN is high already. -/
def execHrstnRise (s : State) : Host.Outcome State Fault Refusal :=
  if s.pins.hrstnLow then .next s.quiet.takeHrstnRise else .next s.quiet

end Sys2Proof.Machine
end

