-- ==== Sys2Proof/Machine/Timing.lean ====
section
/-! DEFINITION. The commands of time: TICK, DEADLINE_LAPSE, RATE_WINDOW_OPENS, STROBE_PULSE_END, GAP_COUNT_EXPIRY,
REFCLK_RISING_EDGE. DEADLINE_LAPSE, RATE_WINDOW_OPENS and STROBE_PULSE_END each name a tick by something that happens at it:
the whole tick is taken, where it brings that about (log 4). -/

namespace Sys2Proof.Machine

/-- TICK (R97 to R99): not before the power-up reset has ended (R115). The source periods that make the tick have passed; the
REFCLK monitor's gap count and run count stay as they were, although the last of those periods is an IRC period (R100) or a
REFCLK edge (R101). DESIGN CHOICE (log 3), as for the three commands below that name a tick. -/
def execTick (order : TickOrder) (s : State) : Host.Outcome State Fault Refusal :=
  if s.clocked then .next (s.quiet.tickOnce order) else .next s.quiet

/-- DEADLINE_LAPSE (R21, R107): the tick at which this entry lapses. -/
def execDeadlineLapse (index : Nat) (order : TickOrder) (s : State) : Host.Outcome State Fault Refusal :=
  if s.clocked && decide (s.mode = .monitoring) && (s.entry index).lapsesAtTick then .next (s.quiet.tickOnce order)
  else .next s.quiet

/-- RATE_WINDOW_OPENS (R111): the tick at which a new window of this entry opens. -/
def execRateWindowOpens (index : Nat) (order : TickOrder) (s : State) : Host.Outcome State Fault Refusal :=
  if s.clocked && decide (s.mode = .monitoring) && (s.entry index).opensWindowAtTick then .next (s.quiet.tickOnce order)
  else .next s.quiet

/-- The pulse remaining of a class as the alert unit finds it at the coming tick. -/
def State.pulseAtTick (s : State) (cls : ClassNo) (order : TickOrder) : Nat :=
  ((s.countTick.atAlertTick order).alerts.get cls).pulse

/-- STROBE_PULSE_END (R145): the tick at which the pulse of this class ends. -/
def execStrobePulseEnd (cls : ClassNo) (order : TickOrder) (s : State) : Host.Outcome State Fault Refusal :=
  if s.clocked && decide (s.pulseAtTick cls order = 1) then .next (s.quiet.tickOnce order) else .next s.quiet

/-- GAP_COUNT_EXPIRY (R100, R102): the gap count reaches 64; not while it stands there. The divider does not count the IRC
periods that have passed (DESIGN CHOICE, log 3). -/
def execGapCountExpiry (s : State) : Host.Outcome State Fault Refusal :=
  if s.clocked && decide (s.time.gap < 64) then .next s.quiet.gapExpires else .next s.quiet

/-- REFCLK_RISING_EDGE (R101, R96). -/
def execRefclkRisingEdge (order : TickOrder) (s : State) : Host.Outcome State Fault Refusal :=
  if s.clocked then .next (s.quiet.refclkEdge order) else .next s.quiet

end Sys2Proof.Machine
end

