-- ==== Sys2Proof/Machine/Dispatch.lean ====
section
/-! DEFINITION. The effect of each command: one arm for each constructor of Instr. -/

namespace Sys2Proof.Machine

/-- The effect of a command on everything but the queue of waiting commands. -/
def exec (i : Instr) (s : State) : Host.Outcome State Fault Refusal :=
  match i with
  | .powerUp => Sys2Proof.Machine.execPowerUp s
  | .powerUpResetEnd => Sys2Proof.Machine.execPowerUpResetEnd s
  | .initialisationEnd => Sys2Proof.Machine.execInitialisationEnd s
  | .srstnFall => Sys2Proof.Machine.execSrstnFall s
  | .srstnRise => Sys2Proof.Machine.execSrstnRise s
  | .hostReset => Sys2Proof.Machine.execHostReset s
  | .hrstnRise => Sys2Proof.Machine.execHrstnRise s
  | .transactionRequestTaken start hdir hlen data strobes => Sys2Proof.Machine.execTransactionRequestTaken start hdir hlen data strobes s
  | .beatTaken data strobes => Sys2Proof.Machine.execBeatTaken data strobes s
  | .memoryReady data error => Sys2Proof.Machine.execMemoryReady data error s
  | .responseLimit => Sys2Proof.Machine.execResponseLimit s
  | .tick order => Sys2Proof.Machine.execTick order s
  | .deadlineLapse index order => Sys2Proof.Machine.execDeadlineLapse index order s
  | .rateWindowOpens index order => Sys2Proof.Machine.execRateWindowOpens index order s
  | .strobePulseEnd cls order => Sys2Proof.Machine.execStrobePulseEnd cls order s
  | .gapCountExpiry => Sys2Proof.Machine.execGapCountExpiry s
  | .refclkRisingEdge order => Sys2Proof.Machine.execRefclkRisingEdge order s
  | .csnFall => Sys2Proof.Machine.execCsnFall s
  | .csnRise => Sys2Proof.Machine.execCsnRise s
  | .requestByteReceived byte => Sys2Proof.Machine.execRequestByteReceived byte s
  | .responseByteSent => Sys2Proof.Machine.execResponseByteSent s
  | .badFrame byte => Sys2Proof.Machine.execBadFrame byte s
  | .badCommand code payload => Sys2Proof.Machine.execBadCommand code payload s
  | .identify payload => Sys2Proof.Machine.execIdentify payload s
  | .readStatus payload => Sys2Proof.Machine.execReadStatus payload s
  | .loadEntry payload => Sys2Proof.Machine.execLoadEntry payload s
  | .armEntry payload => Sys2Proof.Machine.execArmEntry payload s
  | .disarmEntry payload => Sys2Proof.Machine.execDisarmEntry payload s
  | .clearEntry payload => Sys2Proof.Machine.execClearEntry payload s
  | .resyncEntry payload => Sys2Proof.Machine.execResyncEntry payload s
  | .queryEntry payload => Sys2Proof.Machine.execQueryEntry payload s
  | .suspend payload => Sys2Proof.Machine.execSuspend payload s
  | .resume payload => Sys2Proof.Machine.execResume payload s
  | .readEvents payload => Sys2Proof.Machine.execReadEvents payload s
  | .ackEvents payload => Sys2Proof.Machine.execAckEvents payload s
  | .setClass payload => Sys2Proof.Machine.execSetClass payload s
  | .clearMissed payload => Sys2Proof.Machine.execClearMissed payload s
  | .setPartClasses payload => Sys2Proof.Machine.execSetPartClasses payload s
  | .setTimebase payload => Sys2Proof.Machine.execSetTimebase payload s
  | .resetPart payload => Sys2Proof.Machine.execResetPart payload s

end Sys2Proof.Machine
end

