-- ==== Sys2Proof/Machine/LinkBits.lean ====
section
/-! DEFINITION. The edges of SCK: bits sampled from SDI, bits changed on SDO, and the command that a whole byte is (R155,
R157). -/

namespace Sys2Proof.Machine

/-- The request that the code of a frame names; BAD_COMMAND for a code outside Table 9-2 (R160, R185). -/
def requestNamed (code : Byte) (payload : List Byte) : Instr :=
  match code.toNat with
  | 0x01 => .identify payload
  | 0x02 => .readStatus payload
  | 0x10 => .loadEntry payload
  | 0x11 => .armEntry payload
  | 0x12 => .disarmEntry payload
  | 0x13 => .clearEntry payload
  | 0x14 => .resyncEntry payload
  | 0x15 => .queryEntry payload
  | 0x20 => .suspend payload
  | 0x21 => .resume payload
  | 0x30 => .readEvents payload
  | 0x31 => .ackEvents payload
  | 0x40 => .setClass payload
  | 0x41 => .clearMissed payload
  | 0x42 => .setPartClasses payload
  | 0x50 => .setTimebase payload
  | 0x60 => .resetPart payload
  | _ => .badCommand code payload

/-- The command that a byte received whole is where the link stands (R157, R159, R161): in REQUEST a byte of the frame, or
the byte that ends it, bad or as the request its code names; after the check a byte sent. -/
def Link.byteCommand (l : Link) (byte : Byte) : Instr :=
  match l.phase with
  | .request =>
    if l.position = 0 ∨ l.position = 1 ∧ byte.toNat ≤ maxPayload ∨ 2 ≤ l.position ∧ l.position < l.length.toNat + 2 then
      .requestByteReceived byte
    else if l.position = 1 ∨ byte ≠ l.crc then .badFrame byte
    else requestNamed l.code l.payload
  | .idle | .turnaround | .response | .trailing => .responseByteSent

/-- R155: a falling edge of SCK: SDO changes to the bit that follows those sampled. The falling edge before the first rising
edge in mode 3 finds no bit sampled and leaves the first bit there. In IDLE it is ignored. -/
def State.sckFalls (s : State) : State :=
  { s with pins := { s.pins with
      sckHigh := false
      sdo := if s.link.phase = .idle then s.pins.sdo else some (s.link.sending.getLsbD (7 - s.link.bits.length)) } }

/-- R155: a rising edge of SCK: SDI is sampled, and the eighth bit makes the byte received and sent, with the command that the
byte is, which takes SCK high. SDO stays. In IDLE the edge is ignored. -/
def State.sckRises (s : State) (sdi : Bool) : Host.Outcome State Fault Refusal :=
  let s1 := { s with pins := { s.pins with sckHigh := true } }
  if s.link.phase = .idle then .next s1
  else if s.link.bits.length < 7 then .next { s1 with link := { s.link with bits := s.link.bits ++ [sdi] } }
  else exec (s.link.byteCommand (byteOfBits (s.link.bits ++ [sdi]))) s

/-- An edge of SCK, which way by the level that SCK has. SPI modes 0 and 3 need no setting: the level at the fall of CSN
tells which edge comes first. -/
def State.sckEdge (s : State) (sdi : Bool) : Host.Outcome State Fault Refusal :=
  if s.pins.sckHigh then .next s.sckFalls else s.sckRises sdi

end Sys2Proof.Machine
end

