-- ==== Sys2Proof/Machine/Idle.lean ====
section
/-! DEFINITION. What passes while no command waits: one edge of a clock, with what the pins show at it (log 2). -/

namespace Sys2Proof.Machine

/-- An edge that passes while no command waits. -/
inductive ClockEdge where
  /-- A rising edge of BCLK, with the levels found at SRSTN and HRSTN and the order of its work. -/
  | bclk (srstnLow hrstnLow : Bool) (order : Fin 6)
  /-- An edge of SCK, with the level of SDI. -/
  | sck (sdi : Bool)
  /-- One period of IRC, with the order of the tick it may make. -/
  | irc (order : TickOrder)
deriving DecidableEq, Repr

/-- The edge of the n-th idle step, a free value. -/
def idleEdge (n : Nat) : ClockEdge :=
  if Config.idleEdgeIsBclk n then .bclk (Config.idleSrstnLow n) (Config.idleHrstnLow n) (Config.idleEdgeOrder n)
  else if Config.idleEdgeIsSck n then .sck (Config.idleSdiHigh n)
  else .irc (if Config.idleTickAlertFirst n then .alertFirst else .recordsFirst)

/-- The part at an edge. IRC counts once the power-up reset has ended (R115). -/
def State.passEdge (s : State) : ClockEdge → Host.Outcome State Fault Refusal
  | .bclk srstnLow hrstnLow order => .next (s.bclkEdge srstnLow hrstnLow order)
  | .sck sdi => s.sckEdge sdi
  | .irc order => .next (if s.clocked then s.ircPeriod order else s)

/-- One edge passes. -/
def State.idle (s : State) : Host.Outcome State Fault Refusal :=
  State.passEdge { s.quiet with idles := s.idles + 1 } (idleEdge s.idles)

end Sys2Proof.Machine
end

