-- ==== Sys2Proof/Machine/Step.lean ====
section
/-! DEFINITION. One step of the part: the command at the front of the queue, or one clock edge when none waits. -/

namespace Sys2Proof.Machine

/-- One step: exec of the command at the front of the queue on the state with the queue's rest; an idle step on an empty
queue (log 2). -/
def step (s : State) : Host.Outcome State Fault Refusal :=
  match s.pending with
  | [] => s.idle
  | c :: rest => exec c { s with pending := rest }

/-- The state with the command that the word spells put at the front of its queue; unchanged where it spells none. -/
def State.withFetchWord (s : State) (nbits w : Nat) : State :=
  match decodeTableWord nbits w with
  | none => s
  | some c => { s with pending := c :: s.pending }

end Sys2Proof.Machine
end

