-- ==== Sys2Proof/Machine/Pins.lean ====
section
/-! DEFINITION. The output pins as views of the state (R155, R190, Table 9-11). -/

namespace Sys2Proof.Machine

/-- The host outputs: HRDY, HERR and HRD; HRD is absent where the manual gives it no value (log 16). -/
structure HostPins where
  hrdy : Bool
  herr : Bool
  hrd : Option Word
deriving DecidableEq, Repr

/-- R83, R90, R190: ready in the period of an answer, error when it is ERROR; read data carries memory's word or 00000000h;
ready and error low while HRSTN is low. -/
def State.hostPins (s : State) : HostPins :=
  match s.out.answer with
  | some (.dataOk data) => ⟨!s.pins.hrstnLow, false, some data⟩
  | some .completionOk => ⟨!s.pins.hrstnLow, false, some 0⟩
  | some .error => ⟨!s.pins.hrstnLow, !s.pins.hrstnLow, some 0⟩
  | none => ⟨false, false, if s.power = .powerUpReset then some 0 else none⟩

/-- The memory outputs, as levels; MWD is absent during a read (log 16). -/
structure MemoryPins where
  mvld : Bool
  madr : Addr
  mdir : Bool
  mlen : BitVec 2
  mstb : Lanes
  mwd : Option Word
deriving DecidableEq, Repr

/-- R55, R57, R190: the access on the bus, MDIR high for a write, all strobes for a read, MLEN always 0, zero while MVLD
is low. -/
def State.memoryPins (s : State) : MemoryPins :=
  match s.port.bus with
  | none => ⟨false, 0, false, lengthCode .one, 0, some 0⟩
  | some a =>
    match a.op with
    | .read => ⟨true, a.addr, dirHigh .read, lengthCode .one, 0xF, none⟩
    | .write data strobes => ⟨true, a.addr, dirHigh .write, lengthCode .one, strobes, some data⟩

/-- R155, R181, R190: the bit on SDO, absent while SDO is not driven. -/
def State.sdoPin (s : State) : Option Bool := s.pins.sdo

/-- R141: ALERTc is low exactly when its line is asserted. -/
def State.alertLow (s : State) (c : ClassNo) : Bool := (s.alerts.get c).line

end Sys2Proof.Machine
end

