-- ==== Sys2Proof/Safety.lean ====
section
/-! DEFINITION. What counts as a sound state of the part, in the terms the claims use: what the rules say of every entry, of
the fetch list, of a hold, of the arbiter, of the time base, of the queue and the alert lines, and of the link. -/

namespace Sys2Proof.Machine

/-- R9: the bounds of an ARMED entry's runtime fields, the fields its kind does not use being zero (R7). Remaining has not
moved since the completion that spares a countdown (R49). -/
def Runtime.armedSound (d : Descriptor) (rt : Runtime) : Bool :=
  match d.kind with
  | .condition => decide ({ rt with shadow := 0 } = Runtime.zero)
  | .deadline =>
    decide (1 ≤ rt.remaining ∧ rt.remaining ≤ d.reload.toNat ∧ (rt.spared = true → rt.remaining = d.reload.toNat) ∧
      { rt with remaining := 0, spared := false } = Runtime.zero)
  | .count =>
    decide (rt.spared = false) &&
    (d.changeOnly || decide (rt.shadow = 0)) &&
    match d.countMode with
    | .total =>
      decide (1 ≤ rt.remaining ∧ rt.remaining ≤ d.reload.toNat ∧ { rt with shadow := 0, remaining := 0 } = Runtime.zero)
    | .rate =>
      decide (rt.remaining = 0 ∧ rt.lapseTick = 0 ∧ rt.allowance ≤ d.reload.toNat ∧ 1 ≤ rt.windowLeft ∧
        rt.windowLeft ≤ d.window.toNat ∧ rt.excess ≤ 65535 ∧ (0 < rt.allowance → rt.windowTripped = false) ∧
        (rt.windowTripped = false → rt.excess = 0))

/-- R1, R3, R7, R8, R9: an entry is EMPTY with every field zero, or holds a valid descriptor; outside ARMED and LAPSED its
runtime fields stand at their start values; only shadow-bearing entries wait for a shadow, and only DEADLINE entries
lapse. -/
def Entry.sound (e : Entry) : Bool :=
  match e.desc with
  | none => decide (e.state = .empty ∧ e.rt = Runtime.zero)
  | some d =>
    d.valid &&
    match e.state with
    | .empty => false
    | .loaded => decide (e.rt = d.startValues)
    | .pending | .fetching => d.shadowBearing && decide (e.rt = d.startValues)
    | .armed => e.rt.armedSound d
    | .lapsed => d.isDeadline && decide ({ e.rt with lapseTick := 0 } = Runtime.zero)

/-- R1: 48 sound entries. -/
def State.tableSound (s : State) : Prop := s.entries.length = entryCount ∧ ∀ e ∈ s.entries, e.sound = true

/-- R24: while SUSPENDED no shadow-bearing entry is ARMED or FETCHING. -/
def State.suspensionSound (s : State) : Prop :=
  s.mode = .suspended → ∀ e ∈ s.entries, e.shadowBearing = true → e.state ≠ .armed ∧ e.state ≠ .fetching

/-- The requests that name an entry and are not orphaned (R10). -/
def requestsOf (list : List FetchRequest) (i : Nat) : List FetchRequest :=
  list.filter fun r => decide (r.entry = i) && !r.orphaned

/-- R10, R59, R60, R62: at most 8 requests, each naming an entry of the table; an entry is FETCHING exactly when one request
that is not orphaned names it, and that request holds its base; only the head can be ISSUED, and it is ISSUED exactly while
a fetch of the list is on the bus; a QUEUED request is not orphaned; in SUSPENDED every request is orphaned. -/
def State.fetchSound (s : State) : Prop :=
  s.port.list.length ≤ listCapacity ∧
  (∀ r ∈ s.port.list, r.entry < entryCount) ∧
  (∀ i < entryCount, (requestsOf s.port.list i).length = if (s.entry i).state = .fetching then 1 else 0) ∧
  (∀ r ∈ s.port.list, r.orphaned = false → r.addr = (s.entry r.entry).base) ∧
  (∀ r ∈ s.port.list.tail, r.status = .queued) ∧
  (∀ r ∈ s.port.list, r.status = .queued → r.orphaned = false) ∧
  ((s.port.list.head?.any fun r => decide (r.status = .issued)) =
    s.port.bus.any fun a => decide (a.owner = .fetch))

/-- R55 to R57, R81: a beat is AT MEMORY, its answer not yet held, exactly while its access is on the bus with its answer
still wanted; a fetch of the list reads its request's address; every fetch is a read; the period lies in 1 to 1024. -/
def State.accessSound (s : State) : Prop :=
  (∀ a, s.port.bus = some a → a.owner = .host true →
    ∃ t ∈ s.host, t.held = none ∧ ∃ b ∈ t.current, b.state = .atMemory ∧ b.addr = a.addr ∧ b.op = a.op) ∧
  (∀ t, s.host = some t → t.held = none → ∀ b, t.current = some b → b.state = .atMemory →
    s.port.bus.any (fun a => decide (a.owner = .host true)) = true) ∧
  (∀ a, s.port.bus = some a → a.owner = .fetch → ∃ r ∈ s.port.list.head?, r.addr = a.addr) ∧
  (∀ a, s.port.bus = some a → a.owner = .fetch ∨ a.owner = .strayFetch → a.op = .read) ∧
  ∀ a, s.port.bus = some a → 1 ≤ a.period ∧ a.period ≤ 1024

/-- R32, R33, R61: a HELD beat is in MONITORING with at least one blocking entry, the decision in progress records the
covering and blocking entries of the table, and the promoted group stands first among the QUEUED requests; without a HELD
beat there is no decision in progress. That the recorded sets are those of the table after every step is the model's reading
(DEDUCED, log 14). -/
def State.holdSound (s : State) : Prop :=
  (s.beatAtChecker = none → s.checker = none) ∧
  ∀ b, s.beatAtChecker = some b →
    s.mode = .monitoring ∧ blockingOf s.entries b.addr b.op.dir ≠ [] ∧
    s.checker = some ⟨coveringOf s.entries b.addr b.op.dir, blockingOf s.entries b.addr b.op.dir⟩ ∧
    s.port.list = promoted (blockingOf s.entries b.addr b.op.dir) s.port.list

/-- R55, R67: while the bus is free no work waits for it. -/
def State.arbiterSound (s : State) : Prop := s.port.bus = none → s.port.list = [] ∧ s.waitingBeat = none

/-- R14: in MONITORING, no entry is PENDING while the fetch list has room. -/
def State.roomSound (s : State) : Prop :=
  s.mode = .monitoring → s.hasRoom = true → ∀ e ∈ s.entries, e.state ≠ .pending

/-- R83: an answer of the kind that an access in this direction brings. -/
def HostAnswer.fits : HostAnswer → Direction → Bool
  | .error, _ => true
  | .dataOk _, .read => true
  | .completionOk, .write => true
  | .dataOk _, .write | .completionOk, .read => false

/-- R81, Table 4-2: a current beat between steps, with the answer that the host port holds for it. A beat that is TAKEN is one
of a REFUSED or CUT course, to be answered ERROR; any other is one of a NORMAL course. A HELD beat has no answer, a DECIDED one
that of its disposition, and one AT MEMORY that of its access once the access has ended. -/
def Beat.answerSound (b : Beat) (course : Course) (held : Option HostAnswer) : Bool :=
  match b.state with
  | .taken => decide (course ≠ .normal ∧ held = some .error)
  | .held => decide (course = .normal ∧ held = none)
  | .decided d => decide (course = .normal ∧ held = d.ownAnswer ∧ (d = .dropped → b.op.dir = .write))
  | .atMemory => decide (course = .normal) && held.all fun a => a.fits b.op.dir

/-- R77, R83 to R85, R88 to R90: a transaction is in progress only while the host port is open, and has answered fewer beats
than its length; a current beat between steps is the next one, at its address (modulo 2^24, log 21) and in its direction; an
answer is held for a current beat alone. -/
def State.hostSound (s : State) : Prop :=
  ∀ t, s.host = some t →
    s.hostPortOpen = true ∧ t.answered < t.len.beats ∧ (t.current = none → t.held = none) ∧
    ∀ b, t.current = some b →
      b.index = t.answered + 1 ∧ b.addr = t.start + BitVec.ofNat 24 t.answered ∧ b.op.dir = t.dir ∧
        b.answerSound t.course t.held = true

/-- The table, the host port, the checker and the memory port are sound together. -/
def State.trafficSound (s : State) : Prop :=
  s.tableSound ∧ s.suspensionSound ∧ s.fetchSound ∧ s.accessSound ∧ s.holdSound ∧ s.arbiterSound ∧ s.roomSound ∧
    s.hostSound

/-- R96, R100 to R102: REFCLK is the source only while the monitor is RUNNING; the counts stay within Table 5-1. -/
def State.timeSound (s : State) : Prop :=
  (s.time.source = .refclk → s.time.monitor = .running) ∧
  1 ≤ s.time.divisor.toNat ∧ s.time.dividerCount < s.time.divisor.toNat ∧ s.time.gap ≤ 64 ∧ s.time.run < 16 ∧
  (s.time.monitor = .running → s.time.gap < 64 ∧ s.time.run = 0)

/-- R118, R142: at most 32 records, and the class counts are the numbers of records of each class. -/
def State.queueSound (s : State) : Prop :=
  s.queue.records.length ≤ queueCapacity ∧
  ∀ c, (s.alerts.get c).count = s.queue.records.countP fun r => decide (r.cls = c)

/-- R141, R143, Table 7-1: each line shows its class's state; a pulse runs only with mask OPEN and mode STROBE; strobe
length and pulse stay within their ranges. -/
def ClassState.sound (k : ClassState) : Prop :=
  k.line = k.lineValue ∧ (k.maskOpen = true ∧ k.mode = .strobe ∨ k.pulse = 0) ∧ 1 ≤ k.strobeLength ∧
  k.strobeLength ≤ 15 ∧ k.pulse ≤ 16

/-- Every class is sound. -/
def State.alertSound (s : State) : Prop := ∀ c, (s.alerts.get c).sound

/-- R155 to R162, R182, Table 8-2: the link is in IDLE exactly when CSN is high, once initialisation has ended; a response is
held exactly in TURNAROUND and RESPONSE; reset pending is set only after a check; no request is received while SRSTN is
low; SDO is driven exactly outside IDLE; a byte in progress has at most seven bits, and IDLE has none. -/
def State.linkSound (s : State) : Prop :=
  (s.power = .running → (s.link.phase = .idle ↔ s.pins.csnLow = false)) ∧
  (s.power ≠ .running → s.link.phase = .idle) ∧
  (s.link.response ≠ [] ↔ s.link.phase = .turnaround ∨ s.link.phase = .response) ∧
  (s.link.resetPending = true → s.link.phase ≠ .idle ∧ s.link.phase ≠ .request) ∧
  (s.pins.srstnLow = true → s.link.phase = .idle ∨ s.link.phase = .trailing) ∧
  s.link.position ≤ 240 ∧
  (s.pins.sdo = none ↔ s.link.phase = .idle) ∧
  s.link.bits.length ≤ 7 ∧
  (s.link.phase = .idle → s.link.bits = [])

/-- R157: in REQUEST the position counts the bytes received, the running CRC is the CRC of those bytes, and the payload is
within the length. -/
def State.frameSound (s : State) : Prop :=
  s.link.phase = .request →
    s.link.received.length = s.link.position ∧ s.link.crc = crcOf s.link.received ∧
    s.link.payload.length = s.link.position - 2 ∧
    (2 ≤ s.link.position → s.link.position ≤ s.link.length.toNat + 2 ∧ s.link.length.toNat ≤ maxPayload)

/-! ## Words of the claims -/

/-- The request that a command spells on the link: its code, the payload length of its request, and its payload
(Tables 8-4 and 9-2). -/
def requestParts : Instr → Option (Byte × Nat × List Byte)
  | .identify p => some (0x01, 0, p)
  | .readStatus p => some (0x02, 0, p)
  | .loadEntry p => some (0x10, 25, p)
  | .armEntry p => some (0x11, 1, p)
  | .disarmEntry p => some (0x12, 1, p)
  | .clearEntry p => some (0x13, 1, p)
  | .resyncEntry p => some (0x14, 1, p)
  | .queryEntry p => some (0x15, 1, p)
  | .suspend p => some (0x20, 0, p)
  | .resume p => some (0x21, 0, p)
  | .readEvents p => some (0x30, 1, p)
  | .ackEvents p => some (0x31, 2, p)
  | .setClass p => some (0x40, 4, p)
  | .clearMissed p => some (0x41, 1, p)
  | .setPartClasses p => some (0x42, 4, p)
  | .setTimebase p => some (0x50, 3, p)
  | .resetPart p => some (0x60, 0, p)
  | _ => none

/-- The code is that of an entry request, whose first payload byte is an index (R160). -/
def entryRequest (code : Byte) : Bool := decide (0x10 ≤ code ∧ code ≤ 0x15)

/-- R81, R83, R85: the transaction once the answer that the host port holds, if it holds one, has been given: one more beat
answered, no current beat, CUT after a REJECTED beat; none after the last beat. -/
def State.hostAnswered (s : State) : Option Transaction :=
  match s.host with
  | none => none
  | some x =>
    if x.held = none then some x
    else if x.answered + 1 = x.len.beats then none
    else
      some { x with
        answered := x.answered + 1, current := none, held := none
        course := if x.current.any fun b => decide (b.state = .decided .rejected) then .cut else x.course }

/-- R83: the state at an edge of BCLK that takes no host reset: the answer that the host port holds, if it holds one and is
open, is given, and nothing else is given out (log 13). -/
def State.answered (s : State) : State :=
  if s.hostPortOpen then { s with host := s.hostAnswered, out := ⟨s.heldAnswer, none⟩ } else { s with out := .none }

/-- The transaction whose next beat a command takes, with the write lines of that period (R78, R79); none for a command that
takes no beat, or that finds the host port not waiting for one, once it has given the answer that it holds. -/
def beatOffered (c : Instr) (s : State) : Option (Transaction × Word × Lanes) :=
  match c with
  | .transactionRequestTaken start hdir hlen data strobes =>
    let len := lengthOfCode hlen
    if s.hostAnswered.isNone then some (⟨start, dirOfLevel hdir, len, 0, courseOf start len, none, none⟩, data, strobes)
    else none
  | .beatTaken data strobes =>
    match s.hostAnswered with
    | none => none
    | some t => if t.current.isNone then some (t, data, strobes) else none
  | _ => none

/-- The host port takes a beat in this state: initialisation has ended and HRSTN is high (R78, R90, R92). -/
def State.takesBeats (s : State) : Prop := s.power = .running ∧ s.pins.hrstnLow = false

/-- R29, R35, R81: the transaction with a HELD beat released as DECIDED PASSED, any other beat as it is. -/
def Transaction.released (t : Transaction) : Transaction :=
  { t with current := t.current.map fun b => if b.state = .held then { b with state := .decided .passed } else b }

/-- R46, R85: the transaction after its current beat b is decided: the beat waits for the bus when PASSED; completion OK is
held for a DROPPED one and ERROR for a REJECTED one. -/
def Transaction.decidedAs (t : Transaction) (b : Beat) (d : Disposition) : Transaction :=
  { t with
    current := some { b with state := .decided d }
    held := match d with | .passed => none | .dropped => some .completionOk | .rejected => some .error }

/-- R14: an entry after free places were filled: unchanged, or from PENDING to FETCHING. -/
def Entry.filled (e f : Entry) : Prop := f = e ∨ e.state = .pending ∧ f = { e with state := .fetching }

/-- R14, R34: what comes of examining the beat before the checker again, the table being es: t is the state reached, and host
the transaction before any grant of the bus. With no beat held nothing is raised, and the transaction stays. With blocking
entries left the beat stays held. With none left it is decided: the verdicts move the counts, the trips' events are raised as
one group, and the answer of the disposition is held. Free places may then be filled. -/
def State.reexamined (s : State) (es : List Entry) (t : State) (host : Option Transaction) : Prop :=
  match s.host, s.beatAtChecker with
  | some x, some b =>
    if blockingOf es b.addr b.op.dir = [] then
      let d := dispositionOf (actionsOn es b.addr b.op)
      let u := s.raise (decisionEvents es b.addr b.op s.time.tickCounter d)
      t.checker = none ∧ t.queue = u.queue ∧ t.alerts = u.alerts ∧ host = some (x.decidedAs b d) ∧
        ∀ i, (entryAt (judged es b.addr b.op) i).filled (t.entry i)
    else
      t.checker = some ⟨coveringOf es b.addr b.op.dir, blockingOf es b.addr b.op.dir⟩ ∧ t.queue = s.queue ∧
        t.alerts = s.alerts ∧ host = s.host ∧ ∀ i, (entryAt es i).filled (t.entry i)
  | _, _ =>
    t.checker = none ∧ t.queue = s.queue ∧ t.alerts = s.alerts ∧ host = s.host ∧
      ∀ i, (entryAt es i).filled (t.entry i)

/-- R10, R14, R26, R60, R61: the fetch list after `rest` was left of it: the requests of the entries that are FETCHING in t
and were not in s stand at the tail behind the rest in ascending index, each for its entry's base, QUEUED and not orphaned,
and while a beat is held the QUEUED requests of its blocking entries are promoted. -/
def State.refilled (s t : State) (rest : List FetchRequest) : List FetchRequest :=
  let entered := (List.range entryCount).filter fun i =>
    decide ((s.entry i).state ≠ .fetching) && decide ((t.entry i).state = .fetching)
  let list := rest ++ entered.map fun i => ⟨i, (s.entry i).base, .queued, false⟩
  match t.checker with
  | none => list
  | some d => promoted d.blocking list

/-- R14: the order in which PENDING entries of the table es took free places, t being the state reached in MONITORING: one that
is still PENDING found the list full, and each that took a place comes before it: those that block the held beat, as t has
it, come first, and within either group the lower index. -/
def State.filledInOrder (t : State) (es : List Entry) : Prop :=
  t.mode = .monitoring →
    let blocks := fun i => t.checker.any fun d => d.blocking.contains i
    ∀ j, (t.entry j).state = .pending → t.port.list.length = 8 ∧
      ∀ i, (entryAt es i).state = .pending → (t.entry i).state = .fetching →
        blocks i = true ∧ blocks j = false ∨ blocks i = blocks j ∧ i < j

/-- R55, R63, R67: the access has left the bus, `rest` was left of the fetch list and `host` of the transaction, free places
were filled, and the bus was granted by Table 3-1: nothing waited and it is free; or the waiting beat is AT MEMORY and its
access is on the bus; or the head request is ISSUED and its read is on it. -/
def State.handsOn (s t : State) (rest : List FetchRequest) (host : Option Transaction) : Prop :=
  let list := s.refilled t rest
  let waits1 := list.head?.any fun r => t.checker.any fun d => d.blocking.contains r.entry
  let waits2 := host.any fun x => x.current.any fun b => decide (b.state = .decided .passed)
  match arbiterChoice waits1 waits2 (!list.isEmpty && !waits1) s.port.lastGrant with
  | none => t.host = host ∧ t.port = ⟨[], none, s.port.lastGrant⟩
  | some .kind2 =>
    ∃ x b, host = some x ∧ x.current = some b ∧ t.host = some { x with current := some { b with state := .atMemory } } ∧
      t.port = ⟨list, some ⟨.host true, b.addr, b.op, 1⟩, some .kind2⟩
  | some k =>
    ∃ r tail, list = r :: tail ∧ t.host = host ∧
      t.port = ⟨{ r with status := .issued } :: tail, some ⟨.fetch, r.addr, .read, 1⟩, some k⟩

/-- R55, R67: as `handsOn` where the bus was free; with an access on the bus, the access goes on and the list alone grows. -/
def State.carriesOn (s t : State) (rest : List FetchRequest) (host : Option Transaction) : Prop :=
  if s.port.bus = none then s.handsOn t rest host
  else t.host = host ∧ t.port = ⟨s.refilled t rest, s.port.bus, s.port.lastGrant⟩

/-- Table 1-2: whether the n-th field of the 24 descriptor bytes of Table 9-5 passes its check; codes as in Table 9-1 (kind:
1 CONDITION, 2 DEADLINE, 3 COUNT; sense: 1 WRITES, 2 READS, 3 BOTH; action: 0 PASS, 1 DROP, 2 REJECT). -/
def fieldPasses (bytes : List Byte) (n : Nat) : Bool :=
  let at_ := fun i => (bytes.getD i 0).toNat
  let kind := at_ 0
  let countMode := at_ 1 / 16
  let changeOnly := at_ 1 % 16
  let sense := at_ 2
  let action := at_ 3
  let base := (at_ 5 * 256 + at_ 6) * 256 + at_ 7
  let limit := (at_ 8 * 256 + at_ 9) * 256 + at_ 10
  let mask := at_ 11 + at_ 12 + at_ 13 + at_ 14
  let reference := at_ 15 + at_ 16 + at_ 17 + at_ 18
  let reload := at_ 19 * 256 + at_ 20
  let window := at_ 21 * 256 + at_ 22
  let shadowBearing := decide (kind = 1 ∨ kind = 3 ∧ changeOnly = 1)
  match n with
  | 1 => decide (1 ≤ kind ∧ kind ≤ 3)
  | 2 => decide (kind = 3 ∧ countMode ≤ 1 ∨ kind ≠ 3 ∧ countMode = 0)
  | 3 => decide (kind = 3 ∧ changeOnly ≤ 1 ∨ kind ≠ 3 ∧ changeOnly = 0)
  | 4 => decide (1 ≤ sense ∧ sense ≤ 3 ∧ (kind = 1 ∨ changeOnly = 1 → sense = 1))
  | 5 => decide (action ≤ 2 ∧ (kind = 2 → action = 0) ∧ (sense ≠ 1 → action ≠ 1))
  | 6 => decide (at_ 4 ≤ 3)
  | 7 => true
  | 8 => decide (base ≤ limit ∧ (kind = 1 ∨ changeOnly = 1 → limit = base))
  | 9 => decide (if shadowBearing then mask ≠ 0 else mask = 0)
  | 10 => decide (kind = 1 ∨ reference = 0)
  | 11 => decide (if kind = 1 then reload = 0 else 1 ≤ reload ∧ reload ≤ 65535)
  | 12 => decide (if kind = 3 ∧ countMode = 1 then 1 ≤ window ∧ window ≤ 65535 else window = 0)
  | 13 => decide (at_ 23 ≤ 1 ∧ (shadowBearing ∨ at_ 23 = 0))
  | _ => true

/-- R155: the bits of a row pass on the link, each a falling and then a rising edge of SCK that samples it. -/
def State.clockBits : List Bool → State → Host.Outcome State Fault Refusal
  | [], s => .next s
  | bit :: rest, s =>
    match s.sckFalls.sckRises bit with
    | .next t => State.clockBits rest t
    | stop => stop

/-- The bytes given on SDO by so many RESPONSE_BYTE_SENT in a row, and the link after them. -/
def Link.sendMany : Nat → Link → List Byte × Link
  | 0, l => ([], l)
  | n + 1, l =>
    match l.send with
    | none => ([], l)
    | some (l1, b) => (b :: (Link.sendMany n l1).1, (Link.sendMany n l1).2)

/-- The link after a row of received bytes that do not end a frame; none when one of them would. -/
def Link.receiveMany : List Byte → Link → Option Link
  | [], l => some l
  | b :: bs, l =>
    match l.receive b with
    | none => none
    | some l1 => Link.receiveMany bs l1

end Sys2Proof.Machine
end

