-- ==== Sys2Proof/Certificates/Slice0/Obligations.lean ====
section
/-! DEFINITION. The statements for the provers. A state of which a statement asks `trafficSound` or another predicate of
Safety.lean is one that a run reaches: each such predicate is kept by every step, which is stated here first. Three
conventions of the model stand in many statements: `out` holds what the part gives out in that one step (log 7), a request
command receives what is left of its frame (log 6), and a command whose conditions do not hold changes nothing but `out`
(log 1). An answer that the host port comes to hold stands in its transaction (`held`), and is given at the next edge of BCLK,
be it one that passes in an idle step or that of a command (`State.answered`, log 13). Where nothing outside the link is said
to change, SCK and SDO, its own pins, move with it: after a byte SCK is high and SDO shows the last bit sent
(`State.pinsAfter`, R155). -/

open Sys2Proof Sys2Proof.Machine

/-! ## The step, the reset state, and what every step keeps -/

/-- A step takes the command at the front of the queue and runs it on the state with the queue's rest. -/
def Obligations.StepRunsTheFrontCommand : Prop :=
  ∀ (c : Instr) (rest : List Instr) (s : State),
    step { s with pending := c :: rest } = exec c { s with pending := rest }

/-- With no command waiting one edge of BCLK, of SCK or of IRC passes. Which one it is, what the pins show at it and the order
of its work are free values (model's choice, log 2, and log 5 for a tick): the clauses hold for each. An IRC period moves the
time base as `State.ircPeriod` does, and nothing while the power-up reset lasts. An edge of SCK is a falling or a rising one
by the level of SCK. An edge of BCLK samples SRSTN and HRSTN and counts a period: of initialisation, which ends at the 16th, or
of the access on the bus, which ends at the 1024th as RESPONSE_LIMIT does. An answer that the host port holds as the edge of BCLK
comes is given, unless the edge takes a fall of HRSTN, and its transaction has one more beat answered, or ends; that it is
given at this edge is the model's choice (log 13). What SDO shows at the end of initialisation is the model's reading
(log 19). -/
def Obligations.IdleStepPassesOneClockPeriod : Prop :=
  ∀ s : State, s.pending = [] →
    let s1 := { s with idles := s.idles + 1, out := .none }
    ∃ t, step s = .next t ∧ t.pending = [] ∧ t.idles = s.idles + 1 ∧
      match idleEdge s.idles with
      | .irc order => t = if s.power = .powerUpReset then s1 else s1.ircPeriod order
      | .sck sdi =>
        (s.pins.sckHigh = true → t = s1.sckFalls) ∧ (s.pins.sckHigh = false → s1.sckRises sdi = .next t)
      | .bclk srstnLow hrstnLow order =>
        (s.power = .powerUpReset → t = s1) ∧
        (s.power ≠ .powerUpReset →
          t = (edgeOrder order).foldl (State.edgeWork srstnLow hrstnLow)
            (if hrstnLow = true ∧ s.pins.hrstnSample = true ∧ s.pins.hrstnLow = false then s1 else s1.answered)) ∧
        (srstnLow ≠ s.pins.srstnSample ∨ srstnLow = s.pins.srstnLow →
          hrstnLow ≠ s.pins.hrstnSample ∨ hrstnLow = s.pins.hrstnLow →
          let pins := { s.pins with srstnSample := srstnLow, hrstnSample := hrstnLow }
          (∀ n, s.power = .initialising n → n + 1 < 16 →
            t = { s1 with power := .initialising (n + 1), pins }) ∧
          (∀ n, s.power = .initialising n → 16 ≤ n + 1 →
            t = { s1 with power := .running, link := t.link
                          pins := { pins with sdo := if s.pins.csnLow then some false else none } } ∧
            t.link.phase = if s.pins.csnLow then .trailing else .idle) ∧
          (s.power = .running →
            (s.port.bus = none → t = { s1.answered with pins }) ∧
            (∀ a, s.port.bus = some a → a.period < 1024 →
              t = { s1.answered with
                pins, port := { s.port with bus := some { a with period := a.period + 1 } } }) ∧
            ∀ a, s.port.bus = some a → 1024 ≤ a.period → exec .responseLimit { s1 with pins } = .next t))

/-- Every command answers a next state, from any state, and leaves the queue of waiting commands to the step. -/
def Obligations.EveryCommandAnswersANextState : Prop :=
  ∀ (c : Instr) (s : State), ∃ t, exec c s = .next t ∧ t.pending = s.pending ∧ t.idles = s.idles

/-- Every soundness predicate holds of the state after reset. -/
def Obligations.ResetStateIsSound : Prop :=
  State.reset.trafficSound ∧ State.reset.queueSound ∧ State.reset.alertSound ∧ State.reset.timeSound ∧
    State.reset.linkSound ∧ State.reset.frameSound ∧ State.reset.pending = [] ∧ State.reset.power = .powerUpReset

/-- Every step keeps the table, the fetch list, the bus, the hold, the arbiter and the transaction sound together. The
invariant speaks of four things of the model's own: the answer held (log 13), the recorded covering and blocking sets of a held
beat, which are those of the table after every step (log 14, DEDUCED), the field `spared` of a countdown (log 18), and the
address, modulo 2^24, of a REFUSED beat past FFFFFFh (log 21). -/
def Obligations.StepKeepsTrafficSound : Prop :=
  ∀ s t : State, s.trafficSound → step s = .next t → t.trafficSound

/-- Every step keeps the queue within 32 records, each class count the number of its records, and each line what its class's
state gives. -/
def Obligations.StepKeepsQueueAndAlertsSound : Prop :=
  ∀ s t : State, s.queueSound → s.alertSound → step s = .next t → t.queueSound ∧ t.alertSound

/-- Every step keeps REFCLK the source only while the monitor is RUNNING, and the counts within their ranges. -/
def Obligations.StepKeepsTimeSound : Prop :=
  ∀ s t : State, s.timeSound → step s = .next t → t.timeSound

/-- Every step keeps the link's phases and the frame in progress sound. That SDO is driven exactly outside IDLE is the model's
reading (log 19). -/
def Obligations.StepKeepsLinkSound : Prop :=
  ∀ s t : State, s.linkSound → s.frameSound → step s = .next t → t.linkSound ∧ t.frameSound

/-! ## Power, resets and pins -/

/-- POWER_UP gives every block its power-up values and drops what was in progress. That CSN keeps its level is the model's
choice, as for SCK (log 10). -/
def Obligations.PowerUpGivesEveryBlockItsValues : Prop :=
  ∀ s : State, ∃ t, exec .powerUp s = .next t ∧
    t.power = .powerUpReset ∧ t.pins = ⟨s.pins.csnLow, s.pins.sckHigh, false, false, false, false, none⟩ ∧ t.mode = .monitoring ∧
    t.entries = List.replicate 48 ⟨.empty, none, ⟨0, 0, 0, 0, false, 0, 0, false⟩⟩ ∧ t.checker = none ∧ t.host = none ∧
    t.port = ⟨[], none, none⟩ ∧ t.time = ⟨.irc, 1000, 0, 0, .lost, 0, 0⟩ ∧ t.queue = ⟨[], 0, ⟨3, 1, 1, 2⟩⟩ ∧
    (∀ c, t.alerts.get c = ⟨true, .level, 1, false, 0, 0, false⟩) ∧
    t.link.phase = .idle ∧ t.link.payload = [] ∧ t.link.response = [] ∧ t.link.resetPending = false ∧ t.link.bits = [] ∧
    t.out = ⟨none, none⟩

/-- POWER_UP_RESET_END begins initialisation with SRSTN and HRSTN taken high; INITIALISATION_END makes the part run, a select
period in progress going on in TRAILING with SDO driven; each is taken from its own phase alone. A rise of SRSTN or HRSTN
changes that level alone, and nothing while the level is high; an answer that the host port holds is given at the edge of BCLK
of SRSTN_RISE (model's choice, log 13). That INITIALISATION_END is taken whatever its count, and that the edges of BCLK of these
commands count no period of an access on the bus or of initialisation, are the model's choices (log 3); that CSN and SCK keep
their levels is one too (log 10). What SDO shows at the end of initialisation is the model's reading (log 19). -/
def Obligations.StartUpAndPinRises : Prop :=
  ∀ s : State,
    (s.power = .powerUpReset →
      exec .powerUpResetEnd s =
        .next { s with
          power := .initialising 0
          pins := ⟨s.pins.csnLow, s.pins.sckHigh, false, false, false, false, none⟩, out := .none }) ∧
    (s.power ≠ .powerUpReset → exec .powerUpResetEnd s = .next { s with out := .none }) ∧
    (∀ n, s.power = .initialising n → ∃ t, exec .initialisationEnd s = .next t ∧
      t = { s with power := .running, link := t.link, out := .none
                   pins := { s.pins with sdo := if s.pins.csnLow then some false else none } } ∧
      t.link.phase = (if s.pins.csnLow then .trailing else .idle) ∧
      t.link.payload = [] ∧ t.link.response = [] ∧ t.link.resetPending = false ∧ t.link.bits = []) ∧
    ((∀ n, s.power ≠ .initialising n) → exec .initialisationEnd s = .next { s with out := .none }) ∧
    (s.pins.srstnLow = true → exec .srstnRise s =
      .next { s.answered with pins := { s.pins with srstnLow := false, srstnSample := false } }) ∧
    (s.pins.hrstnLow = true → exec .hrstnRise s =
      .next { s with pins := { s.pins with hrstnLow := false, hrstnSample := false }, out := .none }) ∧
    (s.pins.srstnLow = false → exec .srstnRise s = .next s.answered) ∧
    (s.pins.hrstnLow = false → exec .hrstnRise s = .next { s with out := .none })

/-- A taken fall of SRSTN: the supervisor reset of table, list, queue and alerts; a held beat released PASSED; transaction,
bus and time base as they stood; the link in TRAILING or IDLE with nothing pending. Before the part runs the level alone
changes, and a fall while low changes nothing. A change of the pin is taken at the second edge of BCLK in a row that samples
its new level, and a level sampled once changes the sample alone. An answer that the host port holds is given at the edge of
BCLK at which the change is taken (model's choice, log 13). That this edge counts no period of an access on the bus, or of
initialisation, is the model's choice (log 3). That SDO keeps its bit at the fall, within a select period that goes on in
TRAILING, until the next falling edge of SCK is the model's reading (log 19). That a fall while SRSTN is low changes nothing
else is the model's choice (log 1). -/
def Obligations.SrstnFallIsASupervisorReset : Prop :=
  ∀ s : State,
    (s.trafficSound → s.power = .running → s.pins.srstnLow = false → ∃ t, exec .srstnFall s = .next t ∧
      t = { s with pins := { s.pins with srstnLow := true, srstnSample := true }
                   mode := .monitoring, entries := resetEntries, checker := none
                   host := s.hostAnswered.map Transaction.released
                   port := ⟨[], s.port.bus.map Access.afterSupervisorReset, none⟩
                   queue := .reset, alerts := .reset, link := t.link, out := ⟨s.heldAnswer, none⟩ } ∧
      t.link.phase = (if s.pins.csnLow then .trailing else .idle) ∧
      t.link.payload = [] ∧ t.link.response = [] ∧ t.link.resetPending = false) ∧
    (∀ n, s.power = .initialising n → s.pins.srstnLow = false → exec .srstnFall s =
      .next { s with pins := { s.pins with srstnLow := true, srstnSample := true }, out := .none }) ∧
    (s.pins.srstnLow = true → exec .srstnFall s = .next s.answered) ∧
    ∀ low : Bool,
      (low ≠ s.pins.srstnSample ∨ low = s.pins.srstnLow →
        s.sampleSrstn low = { s with pins := { s.pins with srstnSample := low } }) ∧
      (low = true → s.pins.srstnSample = true → s.pins.srstnLow = false →
        exec .srstnFall s = .next (s.answered.sampleSrstn low)) ∧
      (low = false → s.pins.srstnSample = false → s.pins.srstnLow = true →
        exec .srstnRise s = .next (s.answered.sampleSrstn low))

/-- A host reset discards the transaction with its beat, its decision and an answer that is held, leaves an access at memory
to end unanswered, and raises one HOST_RESET of its assigned class: detail 1 and the start address with a transaction, detail 0
without. Counts, records and events of a beat already decided stand. Before the part runs the level alone changes, and a fall
while low changes nothing. A change of the pin is taken at the second edge of BCLK in a row that samples its new level, and a
level sampled once changes the sample alone. An edge at which the fall is taken leaves no transaction and gives no answer, in
whichever order its work comes. That an answer is still held until the next edge of BCLK is the model's reading (log 13); that
the edge of this command counts no period of an access on the bus, or of initialisation, is the model's choice (log 3), as it is
that a fall while HRSTN is low changes nothing (log 1). -/
def Obligations.HostResetAbortsTheTransaction : Prop :=
  ∀ s : State,
    (s.power = .running → s.pins.hrstnLow = false → ∃ t, exec .hostReset s = .next t ∧
      t = { s with pins := { s.pins with hrstnLow := true, hrstnSample := true }
                   host := none, checker := none
                   port := { s.port with bus := s.port.bus.map Access.afterHostReset }
                   queue := t.queue, alerts := t.alerts, out := .none } ∧
      (∀ x, s.host = some x →
        let u := s.raise [{ kind := .hostReset, cls := s.queue.classes.hostReset, tick := s.time.tickCounter,
                            address := some x.start, detail := some 1 }]
        t.queue = u.queue ∧ t.alerts = u.alerts) ∧
      (s.host = none →
        let u := s.raise [{ kind := .hostReset, cls := s.queue.classes.hostReset, tick := s.time.tickCounter,
                            detail := some 0 }]
        t.queue = u.queue ∧ t.alerts = u.alerts)) ∧
    (∀ n, s.power = .initialising n → s.pins.hrstnLow = false → exec .hostReset s =
      .next { s with pins := { s.pins with hrstnLow := true, hrstnSample := true }, out := .none }) ∧
    (s.pins.hrstnLow = true → exec .hostReset s = .next { s with out := .none }) ∧
    ∀ low : Bool,
      (low ≠ s.pins.hrstnSample ∨ low = s.pins.hrstnLow →
        s.sampleHrstn low = { s with pins := { s.pins with hrstnSample := low } }) ∧
      (low = true → s.pins.hrstnSample = true → s.pins.hrstnLow = false →
        exec .hostReset s = .next (State.sampleHrstn { s with out := .none } low)) ∧
      (low = false → s.pins.hrstnSample = false → s.pins.hrstnLow = true →
        exec .hrstnRise s = .next (State.sampleHrstn { s with out := .none } low)) ∧
      ∀ order, s.power = .running → s.pins.hrstnSample = true → s.pins.hrstnLow = false →
        let t := State.bclkEdge { s with out := .none } low true order
        t.host = none ∧ t.checker = none ∧ t.pins.hrstnLow = true ∧ t.out.answer = none

/-! ## Beats -/

/-- R84: a burst that would pass FFFFFFh is refused whole: each beat is taken, ERROR is held for it by the host port alone, and
nothing else changes; a burst that does not pass it is not refused. The beats left of a CUT burst are answered in the same way
(R85). An answer still held for the beat before is given first (model's choice, log 13). A request is not
taken while a transaction goes on after that, nor a beat without a transaction that waits for one; while HRSTN is low or before
the part runs neither is. HDIR and HLEN are read by their codes (R190). The address of a REFUSED beat past FFFFFFh is taken modulo
2^24 (model's choice, log 21). That the edge of BCLK of this command counts no period of an access that stays on the bus is the
model's choice (log 3). -/
def Obligations.RefusedBurstIsAnsweredErrorAlone : Prop :=
  ∀ (s : State) (start : Addr) (hdir : Bool) (hlen : BitVec 2) (data : Word) (strobes : Lanes),
    let dir : Direction := if hdir then .write else .read
    let len : BurstLength := if hlen = 0 then .one else if hlen = 1 then .two else if hlen = 2 then .four else .eight
    let op := fun d : Direction => match d with | .read => BeatOp.read | .write => .write data strobes
    (s.takesBeats → s.hostAnswered = none → 0xFFFFFF < start.toNat + len.beats - 1 →
      exec (.transactionRequestTaken start hdir hlen data strobes) s =
        .next { s with host := some ⟨start, dir, len, 0, .refused, some ⟨1, start, op dir, .taken⟩, some .error⟩
                       out := ⟨s.heldAnswer, none⟩ }) ∧
    (∀ x, s.takesBeats → s.hostAnswered = some x → x.course ≠ .normal → x.current = none →
      exec (.beatTaken data strobes) s =
        .next { s with
          host := some { x with
            current := some ⟨x.answered + 1, x.start + BitVec.ofNat 24 x.answered, op x.dir, .taken⟩, held := some .error }
          out := ⟨s.heldAnswer, none⟩ }) ∧
    (s.takesBeats → s.hostAnswered = none → start.toNat + len.beats - 1 ≤ 0xFFFFFF →
      ∃ t, exec (.transactionRequestTaken start hdir hlen data strobes) s = .next t ∧
        ∀ x, t.host = some x → x.course ≠ .refused) ∧
    (¬s.takesBeats ∨ s.hostAnswered ≠ none →
      exec (.transactionRequestTaken start hdir hlen data strobes) s = .next s.answered) ∧
    (¬s.takesBeats ∨ (∀ x, s.hostAnswered = some x → x.current ≠ none) →
      exec (.beatTaken data strobes) s = .next s.answered)

/-- A beat presented in MONITORING without blocking entries is decided at once: the verdicts move the counts, the
disposition is that of the actions applied, and the trips' events are raised as one group: one event for each entry that
trips, in ascending index, with the entry's class, the tick, the index, the address and the beat's disposition;
CONDITION_BROKEN with the lanes, the shadow and the merged value, COUNT_EXHAUSTED and RATE_EXCEEDED with the direction as
detail and, for a write, the lanes. Of a REJECTED beat ERROR is held, and its answer cuts the burst; of a DROPPED one completion
OK; neither reaches the bus. A PASSED one waits for the bus or begins its access. An answer still held for the beat before is
given as this one is taken (model's choice, log 13). That the edge of BCLK of this command counts no period of an access that
stays on the bus is the model's choice (log 3). -/
def Obligations.UnblockedBeatIsDecidedAtOnce : Prop :=
  ∀ (c : Instr) (s : State) (x : Transaction) (data : Word) (strobes : Lanes),
    beatOffered c s = some (x, data, strobes) → s.takesBeats → s.trafficSound → x.course = .normal →
    s.mode = .monitoring →
    let addr := x.start + BitVec.ofNat 24 x.answered
    let op := beatOp x.dir data strobes
    let d := dispositionOf (actionsOn s.entries addr op)
    blockingOf s.entries addr x.dir = [] →
    ∃ t, exec c s = .next t ∧
      t = { s with entries := judged s.entries addr op, host := t.host, port := t.port, queue := t.queue
                   alerts := t.alerts, out := ⟨s.heldAnswer, none⟩ } ∧
      (∃ group : List Event, t.queue = (s.raise group).queue ∧ t.alerts = (s.raise group).alerts ∧
        group = decisionEvents s.entries addr op s.time.tickCounter d ∧
        group.Pairwise (fun a b => a.entry.getD 0 < b.entry.getD 0) ∧
        ∀ ev, ev ∈ group ↔ ∃ i k, i < 48 ∧ ((s.entry i).judge addr op).trip = some k ∧
          (k = .conditionBroken ∧ (∃ data strobes, op = .write data strobes ∧
              ev = ⟨.conditionBroken, (s.entry i).cls, s.time.tickCounter, some i, some addr, some strobes,
                some (s.entry i).rt.shadow, some (merged (s.entry i).rt.shadow data strobes), some d, none⟩) ∨
            (k = .countExhausted ∨ k = .rateExceeded) ∧
              ev = ⟨k, (s.entry i).cls, s.time.tickCounter, some i, some addr,
                (match op with | .read => none | .write _ strobes => some strobes), none, none, some d,
                some (match op with | .read => 1 | .write _ _ => 0)⟩)) ∧
      (d = .rejected → t.port = s.port ∧
        t.host = some { x with current := some ⟨x.answered + 1, addr, op, .decided .rejected⟩, held := some .error } ∧
        t.hostAnswered = if x.answered + 1 = x.len.beats then none
          else some { x with answered := x.answered + 1, course := .cut }) ∧
      (d = .dropped → t.port = s.port ∧
        t.host =
          some { x with current := some ⟨x.answered + 1, addr, op, .decided .dropped⟩, held := some .completionOk } ∧
        t.hostAnswered = if x.answered + 1 = x.len.beats then none else some { x with answered := x.answered + 1 }) ∧
      (d = .passed → ∀ a, s.port.bus = some a → t.port = s.port ∧
        t.host = some { x with current := some ⟨x.answered + 1, addr, op, .decided .passed⟩ }) ∧
      (d = .passed → s.port.bus = none → t.port = ⟨[], some ⟨.host true, addr, op, 1⟩, some .kind2⟩ ∧
        t.host = some { x with current := some ⟨x.answered + 1, addr, op, .atMemory⟩ })

/-- A beat presented in MONITORING with blocking entries is held: no count moves, nothing is raised, no answer is held, and
the blocking entries' requests are promoted. An answer still held for the beat before is given (model's choice, log 13). An entry
covers a beat when the address lies from its base to its limit, its sense selects the direction, and it is ARMED, LAPSED,
PENDING or FETCHING; the blocking entries are the covering ones that are PENDING or FETCHING. Both are listed in ascending
index. That the edge of BCLK of this command counts no period of an access that stays on the bus is the model's choice
(log 3). -/
def Obligations.BlockedBeatIsHeld : Prop :=
  (∀ (e : Entry) (addr : Addr) (dir : Direction), e.covers addr dir = true ↔
    ∃ d, e.desc = some d ∧ d.base.toNat ≤ addr.toNat ∧ addr.toNat ≤ d.limit.toNat ∧
      (d.sense = .both ∨ d.sense = .writes ∧ dir = .write ∨ d.sense = .reads ∧ dir = .read) ∧
      (e.state = .armed ∨ e.state = .lapsed ∨ e.state = .pending ∨ e.state = .fetching)) ∧
  (∀ (es : List Entry) (addr : Addr) (dir : Direction),
    (∀ i, i ∈ coveringOf es addr dir ↔ i < es.length ∧ (entryAt es i).covers addr dir = true) ∧
    (∀ i, i ∈ blockingOf es addr dir ↔ i < es.length ∧ (entryAt es i).covers addr dir = true ∧
      ((entryAt es i).state = .pending ∨ (entryAt es i).state = .fetching)) ∧
    (coveringOf es addr dir).Pairwise (· < ·) ∧ (blockingOf es addr dir).Pairwise (· < ·)) ∧
  ∀ (c : Instr) (s : State) (x : Transaction) (data : Word) (strobes : Lanes),
    beatOffered c s = some (x, data, strobes) → s.takesBeats → s.trafficSound → x.course = .normal →
    s.mode = .monitoring →
    let addr := x.start + BitVec.ofNat 24 x.answered
    let blocking := blockingOf s.entries addr x.dir
    blocking ≠ [] →
    exec c s = .next { s with
      host := some { x with current := some ⟨x.answered + 1, addr, beatOp x.dir data strobes, .held⟩ }
      checker := some ⟨coveringOf s.entries addr x.dir, blocking⟩
      port := { s.port with list := promoted blocking s.port.list }
      out := ⟨s.heldAnswer, none⟩ }

/-- A beat presented in SUSPENDED passes unchecked: it waits for the bus or begins its access, and no entry, record or line
changes. An answer still held for the beat before is given (model's choice, log 13). That the edge of BCLK of this command
counts no period of an access that stays on the bus is the model's choice (log 3). -/
def Obligations.SuspendedBeatPassesUnchecked : Prop :=
  ∀ (c : Instr) (s : State) (x : Transaction) (data : Word) (strobes : Lanes),
    beatOffered c s = some (x, data, strobes) → s.takesBeats → s.trafficSound → x.course = .normal →
    s.mode = .suspended →
    let addr := x.start + BitVec.ofNat 24 x.answered
    let op := beatOp x.dir data strobes
    (∀ a, s.port.bus = some a →
      exec c s = .next { s with
        host := some { x with current := some ⟨x.answered + 1, addr, op, .decided .passed⟩ }
        out := ⟨s.heldAnswer, none⟩ }) ∧
    (s.port.bus = none →
      exec c s = .next { s with
        host := some { x with current := some ⟨x.answered + 1, addr, op, .atMemory⟩ }
        port := ⟨[], some ⟨.host true, addr, op, 1⟩, some .kind2⟩
        out := ⟨s.heldAnswer, none⟩ })

/-! ## Verdicts -/

/-- An acting CONDITION entry trips on a write, with its action, exactly when its shadow is conforming and the merged value
is not; the entry itself does not change, and a write without strobes cannot trip it. The merged value takes each strobed
lane from the data and every other bit from the shadow. -/
def Obligations.ConditionTripsOnBreakingWrite : Prop :=
  (∀ (shadow data : Word) (strobes : Lanes) (i : Nat), i < 32 →
    (merged shadow data strobes).getLsbD i = if strobes.getLsbD (i / 8) then data.getLsbD i else shadow.getLsbD i) ∧
  ∀ (e : Entry) (d : Descriptor) (addr : Addr) (data : Word) (strobes : Lanes),
    e.desc = some d → d.kind = .condition → e.state = .armed → e.covers addr .write = true →
    let m := merged e.rt.shadow data strobes
    let breaks := e.rt.shadow &&& d.mask = d.reference &&& d.mask ∧ m &&& d.mask ≠ d.reference &&& d.mask
    (breaks → e.judge addr (.write data strobes) = ⟨e, some .conditionBroken, some d.action⟩) ∧
    (¬breaks → e.judge addr (.write data strobes) = ⟨e, none, none⟩) ∧
    (strobes = 0 → ¬breaks)

/-- R40: a TOTAL entry on qualifying beats, which are all covered beats, or with change-only the writes whose merged value
differs from the shadow under the mask: remaining is decremented without a trip, and the beat that brings it to zero
trips, applies the action and reloads it, so it is never seen at zero and exactly every reload-th beat after a reload
trips. -/
def Obligations.TotalTripsEveryReloadBeats : Prop :=
  ∀ (e : Entry) (d : Descriptor) (addr : Addr) (op : BeatOp),
    e.desc = some d → d.kind = .count → d.countMode = .total → e.state = .armed → e.covers addr op.dir = true →
    (d.changeOnly = false ∨ ∃ data strobes, op = .write data strobes ∧
      merged e.rt.shadow data strobes &&& d.mask ≠ e.rt.shadow &&& d.mask) → d.reload ≠ 0 → 1 ≤ e.rt.remaining →
    let after : Nat → Entry := fun k => (fun x : Entry => (x.judge addr op).entry)^[k] e
    (1 < e.rt.remaining →
      e.judge addr op = ⟨{ e with rt := { e.rt with remaining := e.rt.remaining - 1 } }, none, none⟩) ∧
    (e.rt.remaining = 1 →
      e.judge addr op =
        ⟨{ e with rt := { e.rt with remaining := d.reload.toNat } }, some .countExhausted, some d.action⟩) ∧
    (∀ k, 1 ≤ (after k).rt.remaining) ∧
    (e.rt.remaining = d.reload.toNat → ∀ k,
      let v := (after k).judge addr op
      if (k + 1) % d.reload.toNat = 0 then v.trip = some .countExhausted ∧ v.action = some d.action
      else v.trip = none ∧ v.action = none)

/-- A RATE entry on qualifying beats: within the allowance it is decremented without a trip; the first beat beyond it trips
with the action; each later one applies the action without an event and adds to the excess, up to 65535. A covered beat
qualifies, or with change-only a write whose merged value differs from the shadow under the mask. A beat that does not qualify
for a COUNT entry of either mode, and any beat for a DEADLINE entry or for an entry that is not ARMED or does not cover it, moves
nothing, trips nothing and applies no action. -/
def Obligations.RateTripsOnceBeyondAllowance : Prop :=
  (∀ (e : Entry) (addr : Addr) (op : BeatOp),
    (e.desc = none ∨ e.state ≠ .armed ∨ e.covers addr op.dir = false → e.judge addr op = ⟨e, none, none⟩) ∧
    ∀ d, e.desc = some d →
      (d.kind = .deadline → e.judge addr op = ⟨e, none, none⟩) ∧
      (d.kind = .count → d.changeOnly = true →
        (op = .read ∨ ∃ data strobes, op = .write data strobes ∧
          merged e.rt.shadow data strobes &&& d.mask = e.rt.shadow &&& d.mask) →
        e.judge addr op = ⟨e, none, none⟩)) ∧
  ∀ (e : Entry) (d : Descriptor) (addr : Addr) (op : BeatOp),
    e.desc = some d → d.kind = .count → d.countMode = .rate → e.state = .armed → e.covers addr op.dir = true →
    (d.changeOnly = false ∨ ∃ data strobes, op = .write data strobes ∧
      merged e.rt.shadow data strobes &&& d.mask ≠ e.rt.shadow &&& d.mask) →
    let after : Nat → Entry := fun k => (fun x : Entry => (x.judge addr op).entry)^[k] e
    (0 < e.rt.allowance →
      e.judge addr op = ⟨{ e with rt := { e.rt with allowance := e.rt.allowance - 1 } }, none, none⟩) ∧
    (e.rt.allowance = 0 → e.rt.windowTripped = false →
      e.judge addr op = ⟨{ e with rt := { e.rt with windowTripped := true } }, some .rateExceeded, some d.action⟩) ∧
    (e.rt.allowance = 0 → e.rt.windowTripped = true →
      e.judge addr op =
        ⟨{ e with rt := { e.rt with excess := min (e.rt.excess + 1) 65535 } }, none, some d.action⟩) ∧
    (e.rt.windowTripped = false → ∀ k,
      ((after k).judge addr op).trip = if k = e.rt.allowance then some .rateExceeded else none)

/-- The disposition is the most severe action applied, PASSED without one; on a sound table no read is DROPPED. -/
def Obligations.DispositionIsTheMostSevereAction : Prop :=
  (∀ actions : List Action,
    (dispositionOf actions = .rejected ↔ .reject ∈ actions) ∧
    (dispositionOf actions = .dropped ↔ .reject ∉ actions ∧ .drop ∈ actions) ∧
    (dispositionOf actions = .passed ↔ .reject ∉ actions ∧ .drop ∉ actions)) ∧
  ∀ (s : State) (addr : Addr), s.tableSound → dispositionOf (actionsOn s.entries addr .read) ≠ .dropped

/-! ## The end of an access -/

/-- A host access that completes: its answer is held for the host unless a host reset discarded it, every entry takes its completion
effect, and the completion's events are raised as one group. The access has left the bus, which is granted to what waits
for it. With the answer discarded the transaction then in progress stays, but for a grant of its waiting beat and the answer
that it held before, which is given (model's choice, log 13). The memory pins carry the access on the bus with MLEN 0, a read with
all strobes, and hold zero without one; that MWD has no value during a read is the model's reading (log 16). The host pins show
the answer given in the step: HRD the word read of data OK, and 00000000h of completion OK and ERROR; HRDY and HERR are low
without an answer and while HRSTN is low, and HRD is 00000000h while the power-up reset lasts. -/
def Obligations.HostAccessCompletes : Prop :=
  (∀ s : State,
    (s.port.bus = none → s.memoryPins = ⟨false, 0, false, 0, 0, some 0⟩) ∧
    (∀ a, s.port.bus = some a → a.op = .read → s.memoryPins = ⟨true, a.addr, false, 0, 0xF, none⟩) ∧
    (∀ a data strobes, s.port.bus = some a → a.op = .write data strobes →
      s.memoryPins = ⟨true, a.addr, true, 0, strobes, some data⟩) ∧
    (s.out.answer = none ∨ s.pins.hrstnLow = true → s.hostPins.hrdy = false ∧ s.hostPins.herr = false) ∧
    (s.power = .powerUpReset → s.out.answer = none → s.hostPins.hrd = some 0) ∧
    (s.pins.hrstnLow = false →
      (∀ data, s.out.answer = some (.dataOk data) → s.hostPins = ⟨true, false, some data⟩) ∧
      (s.out.answer = some .completionOk → s.hostPins = ⟨true, false, some 0⟩) ∧
      (s.out.answer = some .error → s.hostPins = ⟨true, true, some 0⟩))) ∧
  ∀ (s : State) (a : Access) (wanted : Bool) (data : Word),
    s.trafficSound → s.port.bus = some a → a.owner = .host wanted →
    let u := s.raise
      (collectFrom (fun i e => e.completionEvents i s.mode a.addr a.op data s.time.tickCounter) 0 s.entries)
    ∃ t, exec (.memoryReady data false) s = .next t ∧
      t = { s with entries := mapFrom (fun _ e => e.completed s.mode a.addr a.op data) 0 s.entries
                   host := t.host, port := t.port, queue := u.queue, alerts := u.alerts
                   out := ⟨s.heldAnswer, none⟩ } ∧
      let holding := s.host.map fun x =>
        { x with held := some (match a.op with | .read => .dataOk data | .write _ _ => .completionOk) }
      s.handsOn t s.port.list (if wanted then holding else s.hostAnswered) ∧
        (wanted = true → t.host = holding ∧ t.out.answer = none)

/-- What a completion does to one sound entry: an ARMED shadow-bearing entry on the word takes the merged value of a write;
in MONITORING a covering DEADLINE entry restarts or resumes, with DEADLINE_RESUMED and the ticks since the lapse, and a
checking entry takes read data that differ, with READBACK_DIVERGED; nothing else changes an entry or raises an event. The field
`spared`, set by a restart and by a resumption alike, is the model's own: that the tick which follows does not lapse the entry, a
resumed one in particular, is the model's reading (log 18). -/
def Obligations.CompletionReachesEntries : Prop :=
  ∀ (e : Entry) (i : Nat) (mode : PartMode) (addr : Addr) (op : BeatOp) (data : Word) (now : TickCount),
    e.sound = true →
    let f := e.completed mode addr op data
    let events := e.completionEvents i mode addr op data now
    let onWord := e.shadowBearing = true ∧ e.state = .armed ∧ e.base = addr
    let deadline := ∃ d ∈ e.desc, d.kind = .deadline ∧ e.covers addr op.dir = true
    let checks := onWord ∧ op = .read ∧ (∃ d ∈ e.desc, d.readBack = true) ∧ data ≠ e.rt.shadow
    (onWord → ∀ wdata strobes, op = .write wdata strobes →
      f = { e with rt := { e.rt with shadow := merged e.rt.shadow wdata strobes } } ∧ events = []) ∧
    (mode = .monitoring → ∀ d, e.desc = some d → d.kind = .deadline → e.covers addr op.dir = true →
      f = ⟨.armed, some d, { Runtime.zero with remaining := d.reload.toNat, spared := true }⟩ ∧
      (e.state = .armed → events = []) ∧
      (e.state = .lapsed → events =
        [{ kind := .deadlineResumed, cls := d.cls, tick := now, entry := some i, address := some addr,
           detail := some (BitVec.ofNat 16 (min (now - e.rt.lapseTick).toNat 65535)) }])) ∧
    (mode = .monitoring → checks →
      f = { e with rt := { e.rt with shadow := data } } ∧
      ∃ x : BitVec 16, events =
        [{ kind := .readbackDiverged, cls := e.cls, tick := now, entry := some i, address := some addr,
           old := some e.rt.shadow, new := some data, detail := some x }] ∧
      (x = 1 ↔ ∃ d ∈ e.desc, d.kind = .condition ∧ d.conforming e.rt.shadow = true ∧ d.conforming data = false) ∧
      (x = 0 ∨ x = 1)) ∧
    (¬(onWord ∧ op.dir = .write) → (mode = .suspended ∨ ¬deadline ∧ ¬checks) → f = e ∧ events = [])

/-- A host access that fails, by memory error or at the response limit: ERROR is held for the host unless a host reset discarded it,
one event of the assigned class is raised, after a write each ARMED shadow-bearing entry on the word returns to fetch, in
ascending index as far as the list has room, and no other entry changes. The access has left the bus, which is granted to what
waits for it; a held beat stays held on the entries that then block it. An answer held before, of another transaction than the
access's, is given (model's choice, log 13). RESPONSE_LIMIT is taken whatever the access's period (model's choice, log 3). That
the recorded sets of a held beat are those of the table just after is the model's reading (log 14). -/
def Obligations.HostAccessFails : Prop :=
  ∀ (s : State) (a : Access) (wanted : Bool) (data : Word),
    s.trafficSound → s.port.bus = some a → a.owner = .host wanted →
    ∀ c kind cls,
      (c = Instr.memoryReady data true ∧ kind = EventKind.memoryError ∧ cls = s.queue.classes.memoryError ∨
        c = .responseLimit ∧ kind = .memoryTimeout ∧ cls = s.queue.classes.memoryTimeout) →
      let u := s.raise [{ kind, cls, tick := s.time.tickCounter, address := some a.addr,
                          detail := some (if a.op.dir = .read then 1 else 0) }]
      ∃ t, exec c s = .next t ∧
        t = { s with entries := t.entries, checker := t.checker, host := t.host, port := t.port
                     queue := u.queue, alerts := u.alerts, out := ⟨s.heldAnswer, none⟩ } ∧
        let holding := s.host.map fun x => { x with held := some .error }
        let returns := fun i => a.op.dir = .write ∧ (s.entry i).shadowBearing = true ∧ (s.entry i).state = .armed ∧
          (s.entry i).base = a.addr
        s.handsOn t s.port.list (if wanted then holding else s.hostAnswered) ∧
        (wanted = true → t.host = holding ∧ t.out.answer = none) ∧
        t.checker = s.beatAtChecker.map (fun b =>
          ⟨coveringOf t.entries b.addr b.op.dir, blockingOf t.entries b.addr b.op.dir⟩) ∧
        (∀ i,
          (returns i → t.entry i = (s.entry i).restarted .fetching ∨
            t.entry i = (s.entry i).restarted .pending ∧ t.port.list.length = 8) ∧
          (¬returns i → t.entry i = s.entry i)) ∧
        ∀ i j, returns i → returns j → (t.entry i).state = .fetching → (t.entry j).state = .pending → i < j

/-- A fetch that is not orphaned completes: its entry becomes ARMED with the word read as its shadow and every other field
at its start value, and a held beat is examined again with it. The request has left the list and the access the bus, free
places are filled, by entries that block the held beat first and then in ascending index, and the bus is granted. An answer
held before is given (model's choice, log 13). That the recorded sets of a held beat are those of the table just after is the
model's reading (log 14). -/
def Obligations.FetchCompletionArmsItsEntry : Prop :=
  ∀ (s : State) (a : Access) (r : FetchRequest) (rest : List FetchRequest) (data : Word),
    s.trafficSound → s.port.bus = some a → a.owner = .fetch → s.port.list = r :: rest → r.orphaned = false →
    let es := s.entries.set r.entry
      { s.entry r.entry with
        state := .armed
        rt := { (((s.entry r.entry).desc.map Descriptor.startValues).getD Runtime.zero) with shadow := data } }
    ∃ t, exec (.memoryReady data false) s = .next t ∧
      t = { s with entries := t.entries, checker := t.checker, host := t.host, port := t.port, queue := t.queue
                   alerts := t.alerts, out := ⟨s.heldAnswer, none⟩ } ∧
      (∃ host, s.answered.reexamined es t host ∧ s.handsOn t rest host) ∧ t.filledInOrder es ∧
      (t.entry r.entry).state = .armed ∧ (t.entry r.entry).rt.shadow = data ∧
      (s.beatAtChecker = none → t.entry r.entry = entryAt es r.entry) ∧
      ∀ i, i ≠ r.entry → s.beatAtChecker = none → (s.entry i).filled (t.entry i)

/-- A fetch that is not orphaned fails: its entry becomes LOADED at its start values, FETCH_FAILED is raised with detail 1
for a memory error and 2 for the response limit, and a held beat is examined again without the entry. The request has left
the list and the access the bus, free places are filled, by entries that block the held beat first and then in ascending
index, and the bus is granted. An answer held before is given (model's choice, log 13). RESPONSE_LIMIT is taken whatever the
access's period (model's choice, log 3). That the recorded sets of a held beat are those of the table just after is the model's
reading (log 14). -/
def Obligations.FetchFailureLoadsItsEntry : Prop :=
  ∀ (s : State) (a : Access) (r : FetchRequest) (rest : List FetchRequest) (data : Word),
    s.trafficSound → s.port.bus = some a → a.owner = .fetch → s.port.list = r :: rest → r.orphaned = false →
    ∀ c detail, (c = Instr.memoryReady data true ∧ detail = 1 ∨ c = .responseLimit ∧ detail = 2) →
      let es := s.entries.set r.entry ((s.entry r.entry).restarted .loaded)
      let u := s.answered.raise [{ kind := .fetchFailed, cls := (s.entry r.entry).cls, tick := s.time.tickCounter,
                                    entry := some r.entry, address := some a.addr, detail := some detail }]
      ∃ t, exec c s = .next t ∧
        t = { s with entries := t.entries, checker := t.checker, host := t.host, port := t.port, queue := t.queue
                     alerts := t.alerts, out := ⟨s.heldAnswer, none⟩ } ∧
        (∃ host, u.reexamined es t host ∧ s.handsOn t rest host) ∧ t.filledInOrder es ∧
        t.entry r.entry = (s.entry r.entry).restarted .loaded ∧
        ∀ i, i ≠ r.entry → s.beatAtChecker = none → (s.entry i).filled (t.entry i)

/-- The end of an orphaned fetch, or of one whose list a supervisor reset emptied, is silent: no record, no line, no answer made. The
access has left the bus, and an orphaned request the list; free places are filled behind the rest, by entries that block the held
beat first and then in ascending index, and the bus is granted: to the head request, to the host's waiting beat, which is then AT
MEMORY, or to nothing. A READY or a limit without an access changes nothing. In either case an answer held before is given
(model's choice, log 13). RESPONSE_LIMIT is taken whatever the access's period (model's choice, log 3). -/
def Obligations.OrphanedFetchEndsSilently : Prop :=
  ∀ (s : State) (c : Instr), s.trafficSound → (c = .responseLimit ∨ ∃ data error, c = .memoryReady data error) →
    (∀ a, s.port.bus = some a →
      (a.owner = .strayFetch ∨ a.owner = .fetch ∧ ∃ r ∈ s.port.list.head?, r.orphaned = true) →
      ∃ t, exec c s = .next t ∧
        t = { s with entries := t.entries, host := t.host, port := t.port, out := ⟨s.heldAnswer, none⟩ } ∧
        s.handsOn t (if a.owner = .fetch then s.port.list.tail else s.port.list) s.hostAnswered ∧
        (∀ i, (s.entry i).filled (t.entry i)) ∧ t.filledInOrder s.entries ∧
        (s.mode = .suspended → t.entries = s.entries)) ∧
    (s.port.bus = none → exec c s = .next { s with host := s.hostAnswered, out := ⟨s.heldAnswer, none⟩ })

/-- Table 3-1, and what a grant does: kind 1 when it waits; of kinds 2 and 3 the one alone, or kind 3 unless it was granted
last; a fetch grant issues the head request at its address, a beat's grant begins its access, and each sets the record. -/
def Obligations.ArbiterGrantsByTable : Prop :=
  (∀ (w2 w3 : Bool) (last : Option GrantKind),
    arbiterChoice true w2 w3 last = some .kind1 ∧
    arbiterChoice false true false last = some .kind2 ∧
    arbiterChoice false false true last = some .kind3 ∧
    arbiterChoice false true true last = (if last = some .kind3 then some .kind2 else some .kind3) ∧
    arbiterChoice false false false last = none) ∧
  ∀ s : State, s.port.bus = none →
    (∀ k r rest, s.choice = some k → k ≠ .kind2 → s.port.list = r :: rest →
      s.grant = { s with port := ⟨{ r with status := .issued } :: rest, some ⟨.fetch, r.addr, .read, 1⟩, some k⟩ }) ∧
    (∀ x b, s.choice = some .kind2 → s.host = some x → x.current = some b →
      s.grant = { s with host := some { x with current := some { b with state := .atMemory } }
                         port := ⟨s.port.list, some ⟨.host true, b.addr, b.op, 1⟩, some .kind2⟩ }) ∧
    (s.choice = none → s.grant = s)

/-- The promoted list is a reordering: the ISSUED requests first, then the QUEUED requests of the blocking entries in the
blocking entries' order, then the others in the order they had. -/
def Obligations.PromotionReordersTheList : Prop :=
  ∀ (blocking : List Nat) (list : List FetchRequest),
    blocking.Pairwise (· < ·) →
    (promoted blocking list).Perm list ∧
    ∃ issued group others : List FetchRequest, promoted blocking list = issued ++ group ++ others ∧
      issued = list.filter (fun r => decide (r.status = .issued)) ∧
      (∀ r, r ∈ group ↔ r ∈ list ∧ r.status = .queued ∧ r.entry ∈ blocking) ∧
      group.Pairwise (fun a b => a.entry ≤ b.entry) ∧
      others = list.filter (fun r => decide (r.status = .queued) && !blocking.contains r.entry)

/-! ## Time -/

/-- A tick: the tick counter grows by one and the divider restarts; in MONITORING each entry takes its tick and the lapses
are raised as one group; the alert unit counts the tick before or after, as the order says (log 5). Nothing else changes.
The command is taken whatever the divider has counted (model's choice, log 3). That the monitor's gap count and run count stay
is the model's choice too (log 3). -/
def Obligations.TickReachesTableAndAlerts : Prop :=
  ∀ (s : State) (order : TickOrder), s.power ≠ .powerUpReset →
    let now := s.time.tickCounter + 1
    let events := if s.mode = .monitoring then lapseEvents s.entries now else []
    ∃ t, exec (.tick order) s = .next t ∧
      t = { s with entries := t.entries, queue := t.queue, alerts := t.alerts
                   time := { s.time with tickCounter := now, dividerCount := 0 }, out := .none } ∧
      (∀ i, t.entry i = if s.mode = .monitoring then (s.entry i).ticked now else s.entry i) ∧
      t.queue = (s.raise events).queue ∧
      (order = .alertFirst → t.alerts = ({ s with alerts := s.alerts.mapAll ClassState.ticked }.raise events).alerts) ∧
      (order = .recordsFirst → t.alerts = (s.raise events).alerts.mapAll ClassState.ticked)

/-- What a tick does to one sound entry and to one sound class. A DEADLINE entry whose countdown a completion has restarted since
the last tick does not lapse at this one, whatever its reload; that its remaining then stays at 1 where the reload is 1 is the
model's reading (log 18). -/
def Obligations.TickMovesCountsDown : Prop :=
  (∀ (e : Entry) (d : Descriptor) (now : TickCount), e.sound = true → e.desc = some d → e.state = .armed →
    (d.kind = .deadline → 1 < e.rt.remaining →
      e.ticked now = { e with rt := { e.rt with remaining := e.rt.remaining - 1, spared := false } }) ∧
    (d.kind = .deadline → e.rt.remaining = 1 → e.rt.spared = true →
      e.ticked now = { e with rt := { e.rt with spared := false } }) ∧
    (d.kind = .deadline → e.rt.remaining = 1 → e.rt.spared = false →
      e.ticked now = { e with state := .lapsed, rt := { e.rt with remaining := 0, lapseTick := now } }) ∧
    (d.kind = .count → d.countMode = .rate → 1 < e.rt.windowLeft →
      e.ticked now = { e with rt := { e.rt with windowLeft := e.rt.windowLeft - 1 } }) ∧
    (d.kind = .count → d.countMode = .rate → e.rt.windowLeft = 1 →
      e.ticked now = { e with rt := { e.rt with
        allowance := d.reload.toNat, windowLeft := d.window.toNat, windowTripped := false, excess := 0 } }) ∧
    (d.kind = .condition ∨ d.kind = .count ∧ d.countMode = .total → e.ticked now = e)) ∧
  (∀ (e : Entry) (now : TickCount), e.state ≠ .armed → e.ticked now = e) ∧
  ∀ k : ClassState, k.sound →
    (k.pulse = 0 → k.ticked = k) ∧ (1 < k.pulse → k.ticked = { k with pulse := k.pulse - 1 }) ∧
    (k.pulse = 1 → k.ticked = { k with pulse := 0, line := false })

/-- DEADLINE_LAPSE, RATE_WINDOW_OPENS and STROBE_PULSE_END are the tick at which the named entry lapses, the named entry's
window opens, or the named class's pulse ends (log 4). A DEADLINE entry does not lapse at the tick that follows a completion:
DEADLINE_LAPSE of it is not taken then (log 1), and the tick leaves it ARMED and raises no event of it; that its remaining then stays
at 1, and that a completion which resumed it spares it too, is the model's reading (log 18, the field `spared`). The pulse of a
class ends at the tick exactly where it stands at 1 as the alert unit counts the tick, before the tick's lapses reach the unit
or after, as the order says (log 5): its line is released there, and lapses that come after may start it again. -/
def Obligations.NamedTickBringsItsOutcome : Prop :=
  ∀ (s : State) (i : Nat) (d : Descriptor) (c : ClassNo) (order : TickOrder), s.power ≠ .powerUpReset →
    (s.mode = .monitoring → (s.entry i).state = .armed → (s.entry i).desc = some d → d.kind = .deadline →
      (s.entry i).rt.remaining = 1 → (s.entry i).rt.spared = false →
      ∃ t, exec (.deadlineLapse i order) s = .next t ∧ exec (.tick order) s = .next t ∧
        (t.entry i).state = .lapsed ∧ (t.entry i).rt.remaining = 0 ∧ (t.entry i).rt.lapseTick = s.time.tickCounter + 1 ∧
        { kind := .deadlineLapsed, cls := d.cls, tick := s.time.tickCounter + 1, entry := some i } ∈
          lapseEvents s.entries (s.time.tickCounter + 1)) ∧
    (s.mode = .monitoring → (s.entry i).state = .armed → (s.entry i).desc = some d → d.kind = .deadline →
      (s.entry i).rt.remaining = 1 → (s.entry i).rt.spared = true →
      exec (.deadlineLapse i order) s = .next { s with out := .none } ∧
      ∃ t, exec (.tick order) s = .next t ∧
        t.entry i = { s.entry i with rt := { (s.entry i).rt with spared := false } } ∧
        ∀ ev ∈ lapseEvents s.entries (s.time.tickCounter + 1), ev.entry ≠ some i) ∧
    (s.mode = .monitoring → (s.entry i).state = .armed → (s.entry i).desc = some d → d.kind = .count →
      d.countMode = .rate → (s.entry i).rt.windowLeft = 1 →
      ∃ t, exec (.rateWindowOpens i order) s = .next t ∧ exec (.tick order) s = .next t ∧
        (t.entry i).rt = { (s.entry i).rt with
          allowance := d.reload.toNat, windowLeft := d.window.toNat, windowTripped := false, excess := 0 } ∧
        (t.entry i).state = .armed) ∧
    let events := if s.mode = .monitoring then lapseEvents s.entries (s.time.tickCounter + 1) else []
    let found := match order with
      | .alertFirst => s
      | .recordsFirst => s.raise events
    let counted := { found with alerts := found.alerts.mapAll ClassState.ticked }
    ((found.alerts.get c).pulse = 1 →
      ((s.alerts.get c).sound → (counted.alerts.get c).pulse = 0 ∧ (counted.alerts.get c).line = false) ∧
      ∃ t, exec (.strobePulseEnd c order) s = .next t ∧ exec (.tick order) s = .next t ∧
        t.alerts = (match order with
          | .alertFirst => (counted.raise events).alerts
          | .recordsFirst => counted.alerts)) ∧
    ((found.alerts.get c).pulse ≠ 1 → exec (.strobePulseEnd c order) s = .next { s with out := .none })

/-- The gap count reaches 64: LOST with run count 0; from RUNNING with REFCLK selected the source falls back to IRC, the
divisor kept and the divider restarted, and TIMEBASE_FALLBACK is raised; otherwise no event. The command is taken whatever
gap has been counted below 64 (model's choice, log 3). That the divider counts no period of it is the model's choice too (log
3). -/
def Obligations.GapCountExpiryDeclaresLost : Prop :=
  ∀ s : State, s.power ≠ .powerUpReset → s.time.gap < 64 →
    (¬(s.time.monitor = .running ∧ s.time.source = .refclk) →
      exec .gapCountExpiry s =
        .next { s with time := { s.time with monitor := .lost, gap := 64, run := 0 }, out := .none }) ∧
    (s.time.monitor = .running → s.time.source = .refclk →
      let u := s.raise [{ kind := .timebaseFallback, cls := s.queue.classes.timebaseFallback,
                          tick := s.time.tickCounter }]
      exec .gapCountExpiry s =
        .next { s with
          time := { s.time with source := .irc, dividerCount := 0, monitor := .lost, gap := 64, run := 0 }
          queue := u.queue, alerts := u.alerts, out := .none })

/-- R100: at each IRC period the gap count grows by one, up to 64; at 64 the monitor is LOST with run count 0, from RUNNING
or LOST; further periods leave it; no event comes of LOST itself. -/
def Obligations.GapCountGrowsToSixtyFour : Prop :=
  ∀ (s : State) (order : TickOrder), s.timeSound →
    let t := s.ircPeriod order
    t.time.gap = min (s.time.gap + 1) 64 ∧
    (s.time.gap < 63 → t.time.monitor = s.time.monitor ∧ t.time.run = s.time.run) ∧
    (s.time.gap = 63 → t.time.monitor = .lost ∧ t.time.run = 0) ∧
    (s.time.gap = 64 → t.time.monitor = s.time.monitor ∧ t.time.run = s.time.run) ∧
    (s.time.source = .irc → t.queue = (s.sourcePeriod order).queue ∧ t.alerts = (s.sourcePeriod order).alerts)

/-- A REFCLK edge. In RUNNING the gap count returns to 0 and the run count stays 0; in LOST the run grows below a gap
of 64 and begins at 1 at 64, the gap returns to 0, and a run of 16 declares RUNNING with run 0. The source does not change,
and while it is IRC nothing but the monitor does; while it is REFCLK the edge is also a source period, which the row of the
command does not say (model's reading, log 17). An edge and an IRC period act in the order they come. -/
def Obligations.RefclkEdgeMovesTheMonitor : Prop :=
  ∀ (s : State) (order : TickOrder), s.timeSound → s.power ≠ .powerUpReset →
    ∃ t, exec (.refclkRisingEdge order) s = .next t ∧
      t.time.gap = 0 ∧ t.time.source = s.time.source ∧ t.time.divisor = s.time.divisor ∧
      (s.time.monitor = .running → t.time.monitor = .running ∧ t.time.run = 0) ∧
      (s.time.monitor = .lost →
        let run := if s.time.gap < 64 then s.time.run + 1 else 1
        (run = 16 → t.time.monitor = .running ∧ t.time.run = 0) ∧
        (run ≠ 16 → t.time.monitor = .lost ∧ t.time.run = run)) ∧
      (s.time.source = .irc → t = { s with time := s.time.edge, out := .none }) ∧
      (s.time.source = .refclk → t = State.sourcePeriod { s with time := s.time.edge, out := .none } order) ∧
      (t.ircPeriod order).time.gap = 1 ∧
      (s.time.gap = 63 → (s.ircPeriod order).time.edge.run = 1 ∧ (s.ircPeriod order).time.edge.monitor = .lost)

/-- A source period: the divider counts it, and the one that completes the divisor is a tick; so from a restarted divider
the divisor-th period, and none before it, moves the tick counter. While IRC is the source an IRC period is one: it moves what
a source period moves, and beside it the monitor's gap count, which at 64 stands, with the monitor LOST and its run 0 as it
reaches 64. While REFCLK is the source an IRC period moves the gap count alone, and the one that brings it to 64 does what
GAP_COUNT_EXPIRY does (that the divider does not count this period is the model's reading, log 9). With a divisor of 1 the first
period after a restart is a tick: rule 97 and rule 105 have it so, the last row of rule 106 has none there, and the model
follows the first two (model's choice, log 22). -/
def Obligations.TickEveryDivisorPeriods : Prop :=
  ∀ (s : State) (order : TickOrder), s.timeSound →
    (s.time.dividerCount + 1 < s.time.divisor.toNat →
      s.sourcePeriod order = { s with time := { s.time with dividerCount := s.time.dividerCount + 1 } }) ∧
    (s.time.dividerCount + 1 = s.time.divisor.toNat → s.sourcePeriod order = s.tickOnce order) ∧
    (s.time.dividerCount = 0 →
      let after : Nat → State := fun k => (fun x : State => x.sourcePeriod order)^[k] s
      (∀ k, k < s.time.divisor.toNat → (after k).time.tickCounter = s.time.tickCounter) ∧
      (after s.time.divisor.toNat).time.tickCounter = s.time.tickCounter + 1 ∧
      (after s.time.divisor.toNat).time.dividerCount = 0) ∧
    (s.time.source = .irc → s.time.gap < 63 →
      s.ircPeriod order =
        { s.sourcePeriod order with time := { (s.sourcePeriod order).time with gap := s.time.gap + 1 } }) ∧
    (s.time.source = .irc → s.time.gap = 63 →
      s.ircPeriod order =
        { s.sourcePeriod order with
          time := { (s.sourcePeriod order).time with gap := 64, run := 0, monitor := .lost } }) ∧
    (s.time.source = .irc → s.time.gap = 64 → s.ircPeriod order = s.sourcePeriod order) ∧
    (s.time.source = .refclk → s.time.gap < 63 →
      s.ircPeriod order = { s with time := { s.time with gap := s.time.gap + 1 } }) ∧
    (s.time.source = .refclk → s.time.gap = 63 → s.power ≠ .powerUpReset →
      exec .gapCountExpiry s = .next { s.ircPeriod order with out := .none })

/-- R103, R104, R178: SET TIMEBASE is checked field by field, then for its clock; accepted, it sets source and divisor and
restarts the divider, and answers both; refused, it changes nothing but the link. -/
def Obligations.SetTimebaseChecksThenSelects : Prop :=
  ∀ (s : State) (f hi lo : Byte), s.link.awaits 0x50 [f, hi, lo] = true →
    let divisor : BitVec 16 := hi ++ lo
    let answer := fun (u : State) (r : Reply) =>
      Host.Outcome.next { u with link := s.link.checked 0x50 [f, hi, lo] r, pins := s.pinsAfter 0, out := ⟨none, some 0⟩ }
    let c := Instr.setTimebase [f, hi, lo]
    (1 < f.toNat → exec c s = answer s (.badParam 1)) ∧
    (f.toNat ≤ 1 → (divisor.toNat = 0 ∨ f = 1 ∧ divisor.toNat < 25) → exec c s = answer s (.badParam 2)) ∧
    (f = 1 → 25 ≤ divisor.toNat → s.time.monitor = .lost → exec c s = answer s (.noClock .lost)) ∧
    (f = 1 → 25 ≤ divisor.toNat → s.time.monitor = .running →
      exec c s = answer { s with time := { s.time with source := .refclk, divisor, dividerCount := 0 } }
        (.ok [1, hi, lo])) ∧
    (f = 0 → 1 ≤ divisor.toNat →
      exec c s = answer { s with time := { s.time with source := .irc, divisor, dividerCount := 0 } }
        (.ok [0, hi, lo]))

/-- The part mode is changed by SUSPEND, RESUME, POWER_UP and the supervisor resets alone; the tick counter by POWER_UP, and by
one by TICK, by the three commands that name a tick by its outcome, and by a REFCLK edge, alone. Of a step with no command
waiting: an edge of BCLK changes the mode only where it takes a fall of SRSTN, one of SCK only as the eighth bit of a byte that ends a SUSPEND or RESUME frame, and a period of IRC never; the tick
counter grows, by one, only at a period of IRC that is a source period and completes the divisor. That DEADLINE_LAPSE,
RATE_WINDOW_OPENS and STROBE_PULSE_END are ticks (log 4), and that REFCLK_RISING_EDGE is a source period and so may be one (log
17), is the model's reading; that a step with no command waiting passes one edge of one clock is the model's choice (log 2). -/
def Obligations.ModeAndTickCounterChangeOnlySo : Prop :=
  (∀ s t : State, s.pending = [] → step s = .next t →
    (t.mode ≠ s.mode →
      match idleEdge s.idles with
      | .bclk srstnLow _ _ =>
        s.power ≠ .powerUpReset ∧ srstnLow = true ∧ s.pins.srstnSample = true ∧ s.pins.srstnLow = false
      | .sck sdi =>
        s.pins.sckHigh = false ∧ 7 ≤ s.link.bits.length ∧
          ∃ p, s.link.byteCommand (byteOfBits (s.link.bits ++ [sdi])) = .suspend p ∨
            s.link.byteCommand (byteOfBits (s.link.bits ++ [sdi])) = .resume p
      | .irc _ => False) ∧
    (t.time.tickCounter ≠ s.time.tickCounter →
      t.time.tickCounter = s.time.tickCounter + 1 ∧ s.power ≠ .powerUpReset ∧ s.time.source = .irc ∧
        s.time.divisor.toNat ≤ s.time.dividerCount + 1 ∧ ∃ o, idleEdge s.idles = .irc o)) ∧
  ∀ (c : Instr) (s t : State), exec c s = .next t →
    (t.mode ≠ s.mode →
      (∃ p, c = .suspend p) ∨ (∃ p, c = .resume p) ∨ c = .powerUp ∨ c = .srstnFall ∨ c = .csnRise) ∧
    (t.time.tickCounter ≠ s.time.tickCounter →
      c = .powerUp ∨
      t.time.tickCounter = s.time.tickCounter + 1 ∧
        ((∃ o, c = .tick o) ∨ (∃ i o, c = .deadlineLapse i o) ∨ (∃ i o, c = .rateWindowOpens i o) ∨
          (∃ k o, c = .strobePulseEnd k o) ∨ ∃ o, c = .refclkRisingEdge o))

/-! ## The link -/

/-- R158: the CRC is that of polynomial 07h from FFh, most significant bit first; the response carries it over status,
length and payload; the frame of 01h 00h carries C2h; two bytes of 00h give D7h, so a row of 00h is no response. -/
def Obligations.CrcIsThatOfTheLink : Prop :=
  (crcOf [] = 0xFF ∧
    (∀ (bs : List Byte) (b : Byte),
      crcOf (bs ++ [b]) =
        (fun v : Byte => if v.getLsbD 7 then (v <<< 1) ^^^ 0x07 else v <<< 1)^[8] (crcOf bs ^^^ b)) ∧
    crcOf [0x01, 0x00] = 0xC2 ∧ crcOf [0x00, 0x00] = 0xD7) ∧
  (∀ r : Reply,
    r.frame = r.status :: byteOf r.payload.length :: r.payload ++
      [crcOf (r.status :: byteOf r.payload.length :: r.payload)]) ∧
  ∀ (l : Link) (code : Byte) (payload : List Byte) (r : Reply),
    (l.checked code payload r).crc = crcOf (code :: byteOf payload.length :: payload)

/-- A select period begins in REQUEST with position 0, CRC FFh and no payload, or in TRAILING while SRSTN is low, and is not
taken before the part runs. SDO is driven from its beginning, with the first bit of 00h. It ends in IDLE, its frame, response
and part byte lost and SDO released; a pending RESET PART is then performed. That SDO is not driven in a select period that
begins before the part runs is the model's reading (log 19). -/
def Obligations.SelectPeriodBeginsAndEnds : Prop :=
  ∀ s : State,
    (s.pins.csnLow = false → s.power = .running → ∃ t, exec .csnFall s = .next t ∧
      t = { s with pins := { s.pins with csnLow := true, sdo := some false }, link := t.link, out := .none } ∧
      t.link.bits = [] ∧ t.link.phase = (if s.pins.srstnLow then .trailing else .request) ∧ t.link.position = 0 ∧ t.link.crc = 0xFF ∧
      t.link.payload = [] ∧ t.link.response = [] ∧ t.link.resetPending = false) ∧
    (s.pins.csnLow = false → s.power ≠ .running →
      exec .csnFall s = .next { s with pins := { s.pins with csnLow := true }, out := .none }) ∧
    (s.pins.csnLow = true → s.link.resetPending = false → ∃ t, exec .csnRise s = .next t ∧
      t = { s with pins := { s.pins with csnLow := false, sdo := none }, link := t.link, out := .none } ∧
      t.link.bits = [] ∧ t.link.phase = .idle ∧ t.link.payload = [] ∧ t.link.response = [] ∧ t.link.resetPending = false) ∧
    (s.trafficSound → s.pins.csnLow = true → s.link.resetPending = true → ∃ t, exec .csnRise s = .next t ∧
      t = { s with pins := { s.pins with csnLow := false, sdo := none }
                   mode := .monitoring, entries := resetEntries, checker := none
                   host := s.host.map Transaction.released
                   port := ⟨[], s.port.bus.map Access.afterSupervisorReset, none⟩
                   queue := .reset, alerts := .reset, link := t.link, out := .none } ∧
      t.link.bits = [] ∧ t.link.phase = .idle ∧ t.link.payload = [] ∧ t.link.response = [] ∧ t.link.resetPending = false)

/-- A byte of REQUEST that does not end the frame: the code, a length up to 40, or a payload byte; each is taken into the
CRC, 00h is sent, and nothing outside the link changes. The bits of the byte sampled before, if any, are its first ones. The
bytes of a whole frame but its CRC leave the link awaiting exactly that frame, with its CRC computed. Eight falling and
rising edges of SCK whose rising ones sample the bits of a byte, the most significant first, are that byte: the command that
the byte is where the link stands; so are they without the first falling edge, as in mode 0. A rising edge that ends no byte
changes the bits alone. -/
def Obligations.RequestBytesBuildTheFrame : Prop :=
  (∀ (s : State) (byte : Byte), s.link.phase = .request → s.link.bits.isPrefixOf (bitsOf byte) = true →
    (s.link.position = 0 → exec (.requestByteReceived byte) s =
      .next { s with link := { s.link with position := 1, code := byte, crc := crcByte s.link.crc byte, bits := [] }
                     pins := s.pinsAfter 0, out := ⟨none, some 0⟩ }) ∧
    (s.link.position = 1 → byte.toNat ≤ 40 → exec (.requestByteReceived byte) s =
      .next { s with link := { s.link with position := 2, length := byte, crc := crcByte s.link.crc byte, bits := [] }
                     pins := s.pinsAfter 0, out := ⟨none, some 0⟩ }) ∧
    (2 ≤ s.link.position → s.link.position < s.link.length.toNat + 2 → exec (.requestByteReceived byte) s =
      .next { s with link := { s.link with position := s.link.position + 1, payload := s.link.payload ++ [byte]
                                           crc := crcByte s.link.crc byte, bits := [] }
                     pins := s.pinsAfter 0, out := ⟨none, some 0⟩ })) ∧
  (∀ (s : State) (byte : Byte), s.linkSound → s.frameSound → s.link.phase ≠ .idle → s.link.bits = [] →
    s.clockBits (bitsOf byte) = exec (s.link.byteCommand byte) s ∧
    (∃ t, s.sckRises (byte.getLsbD 7) = .next t ∧
      t.clockBits [byte.getLsbD 6, byte.getLsbD 5, byte.getLsbD 4, byte.getLsbD 3, byte.getLsbD 2, byte.getLsbD 1,
        byte.getLsbD 0] = exec (s.link.byteCommand byte) s) ∧
    (s.link.phase ≠ .request → s.link.byteCommand byte = .responseByteSent) ∧
    (s.link.phase = .request → s.link.position = 0 ∨ s.link.position = 1 ∧ byte.toNat ≤ 40 ∨
      2 ≤ s.link.position ∧ s.link.position < s.link.length.toNat + 2 →
      s.link.byteCommand byte = .requestByteReceived byte) ∧
    (s.link.phase = .request → s.link.position = 1 ∧ 40 < byte.toNat ∨
      2 ≤ s.link.position ∧ s.link.position = s.link.length.toNat + 2 ∧ byte ≠ s.link.crc →
      s.link.byteCommand byte = .badFrame byte) ∧
    (s.link.phase = .request → 2 ≤ s.link.position → s.link.position = s.link.length.toNat + 2 → byte = s.link.crc →
      s.link.awaits s.link.code s.link.payload = true ∧
      (s.link.code ∉ requestCodes → s.link.byteCommand byte = .badCommand s.link.code s.link.payload) ∧
      (s.link.code ∈ requestCodes →
        ∃ n, requestParts (s.link.byteCommand byte) = some (s.link.code, n, s.link.payload)))) ∧
  (∀ (s : State) (sdi : Bool),
    (s.link.phase ≠ .idle → s.link.bits.length < 7 → s.sckRises sdi =
      .next { s with pins := { s.pins with sckHigh := true }, link := { s.link with bits := s.link.bits ++ [sdi] } }) ∧
    (s.link.phase = .idle → s.sckRises sdi = .next { s with pins := { s.pins with sckHigh := true } })) ∧
  ∀ (code : Byte) (payload : List Byte), payload.length ≤ 40 →
    ∃ l, Link.receiveMany (code :: byteOf payload.length :: payload) { Link.idle with phase := .request } = some l ∧
      l.awaits code payload = true ∧ l.crc = crcOf (code :: byteOf payload.length :: payload) ∧
      l.received = code :: byteOf payload.length :: payload

/-- A byte after the check: 00h in TURNAROUND, then the response byte by byte, then 00h in TRAILING; nothing outside the
link changes. Bit by bit, a falling edge of SCK puts on SDO the bit of the byte being sent that follows those clocked, the
most significant first; in IDLE it leaves SDO as it is. After a check the next bytes on SDO are 00h and the whole response
frame, and the link is in TRAILING. -/
def Obligations.ResponseIsSentWhole : Prop :=
  (∀ s : State, s.link.phase = .turnaround ∨ s.link.phase = .response ∨ s.link.phase = .trailing →
    ∃ t b, exec .responseByteSent s = .next t ∧ t = { s with link := t.link, pins := s.pinsAfter b, out := ⟨none, some b⟩ } ∧
      s.link.send = some (t.link, b) ∧
      (s.link.phase = .turnaround → t.link.phase = .response ∧ b = 0) ∧
      (s.link.phase = .trailing → t.link.phase = .trailing ∧ b = 0) ∧ t.link.resetPending = s.link.resetPending ∧
      ∀ k, s.link.bits.length = k → k ≤ 7 →
        s.sckFalls = { s with pins := { s.pins with sckHigh := false, sdo := some (b.getLsbD (7 - k)) } }) ∧
  (∀ s : State, s.link.phase = .request →
    s.sckFalls = { s with pins := { s.pins with sckHigh := false, sdo := some false } }) ∧
  (∀ s : State, s.link.phase = .idle → s.sckFalls = { s with pins := { s.pins with sckHigh := false } }) ∧
  ∀ (l : Link) (code : Byte) (payload : List Byte) (r : Reply), payload.length ≤ 40 → r.payload.length ≤ 193 →
    let sent := Link.sendMany (r.frame.length + 1) (l.checked code payload r)
    sent.1 = 0 :: r.frame ∧ sent.2.phase = .trailing ∧ sent.2.response = []

/-- The byte that ends a frame over length, or a CRC byte that differs from the running CRC, is answered BAD_FRAME, and
nothing outside the link changes. -/
def Obligations.BadFrameChangesNothing : Prop :=
  ∀ (s : State) (byte : Byte), s.link.phase = .request → s.link.bits.isPrefixOf (bitsOf byte) = true →
    (s.link.position = 1 ∧ 40 < byte.toNat ∨
      2 ≤ s.link.position ∧ s.link.position = s.link.length.toNat + 2 ∧ byte ≠ s.link.crc) →
    ∃ t, exec (.badFrame byte) s = .next t ∧ t = { s with link := t.link, pins := s.pinsAfter 0, out := ⟨none, some 0⟩ } ∧
      t.link.phase = .turnaround ∧ t.link.position = s.link.position + 1 ∧
      t.link.response = [0x81, 0x00, crcOf [0x81, 0x00]] ∧ t.link.bits = [] ∧ t.link.resetPending = s.link.resetPending

/-- The checks before a request's own: an unknown code gives BAD_COMMAND, a payload length that is not the request's gives
BAD_PARAM 0, and an index above 47 gives BAD_INDEX; each changes nothing outside the link. -/
def Obligations.FrameChecksComeFirst : Prop :=
  ∀ (s : State) (code : Byte) (payload : List Byte), s.link.awaits code payload = true →
    (code ∉ requestCodes → exec (.badCommand code payload) s =
      .next { s with link := s.link.checked code payload .badCommand, pins := s.pinsAfter 0, out := ⟨none, some 0⟩ }) ∧
    ∀ (c : Instr) (n : Nat), requestParts c = some (code, n, payload) →
      (payload.length ≠ n → exec c s =
        .next { s with link := s.link.checked code payload (.badParam 0), pins := s.pinsAfter 0, out := ⟨none, some 0⟩ }) ∧
      (payload.length = n → entryRequest code = true → 48 ≤ (payload.getD 0 0).toNat → exec c s =
        .next { s with link := s.link.checked code payload .badIndex, pins := s.pinsAfter 0, out := ⟨none, some 0⟩ })

/-- Any command that spells a request answers it; a response other than OK leaves everything outside the link as it was. -/
def Obligations.RefusedRequestChangesNothing : Prop :=
  ∀ (c : Instr) (s : State) (code : Byte) (n : Nat) (payload : List Byte),
    requestParts c = some (code, n, payload) → s.link.awaits code payload = true →
    ∃ t r, exec c s = .next t ∧ t.link.phase = .turnaround ∧ t.link.response = Reply.frame r ∧ t.out.sdo = some 0 ∧
      (r.status ≠ 0x01 →
        t = { s with link := s.link.checked code payload r, pins := s.pinsAfter 0, out := ⟨none, some 0⟩ })

/-! ## Requests that report -/

/-- R165: IDENTIFY answers part code 1C48h, revision 01h and the capacities 48, 32, 8 and 4, from any state, and changes
nothing. -/
def Obligations.IdentifyAnswersThePart : Prop :=
  ∀ s : State, s.link.awaits 0x01 [] = true →
    exec (.identify []) s =
      .next { s with link := s.link.checked 0x01 [] (.ok [0x1C, 0x48, 0x01, 48, 32, 8, 4]), pins := s.pinsAfter 0, out := ⟨none, some 0⟩ }

/-- READ STATUS answers the 17 bytes of Table 9-8. QUERY ENTRY answers the 43 bytes of Table 9-9: index, state, flags,
descriptor or 24 zeros, the shadow when valid, and the runtime fields. Neither changes anything. -/
def Obligations.ReportsAnswerTheirBlocks : Prop :=
  (∀ s : State, s.link.awaits 0x02 [] = true →
    exec (.readStatus []) s =
      .next { s with
        link := s.link.checked 0x02 [] (.ok
          ([if s.mode = .monitoring then 0 else 1, byteOf s.queue.records.length] ++
            bytes2 ((s.queue.records.head?.map Record.sequence).getD s.queue.next) ++ bytes2 s.queue.next ++
            [setByte fun c => (s.alerts.get c).missed, setByte fun c => (s.alerts.get c).line,
              byteOf s.port.list.length, if s.time.source = .irc then 0 else 1] ++
            bytes2 s.time.divisor ++ bytes4 s.time.tickCounter ++ [if s.time.monitor = .lost then 0 else 1]))
        pins := s.pinsAfter 0, out := ⟨none, some 0⟩ }) ∧
  ∀ (s : State) (b : Byte), s.link.awaits 0x15 [b] = true → b.toNat < 48 →
    let e := s.entry b.toNat
    ∃ flags : Byte,
      exec (.queryEntry [b]) s =
        .next { s with
          link := s.link.checked 0x15 [b] (.ok
            ([b, e.state.code, flags] ++
              (match e.desc with | none => List.replicate 24 0 | some d => d.bytes) ++
              bytes4 (if e.shadowBearing = true ∧ e.state = .armed then e.rt.shadow else 0) ++
              bytes2 (BitVec.ofNat 16 e.rt.remaining) ++ bytes2 (BitVec.ofNat 16 e.rt.allowance) ++
              bytes2 (BitVec.ofNat 16 e.rt.windowLeft) ++ bytes2 (BitVec.ofNat 16 e.rt.excess) ++
              bytes4 e.rt.lapseTick))
          pins := s.pinsAfter 0, out := ⟨none, some 0⟩ } ∧
      (flags.getLsbD 0 = true ↔ e.shadowBearing = true ∧ e.state = .armed) ∧
      (flags.getLsbD 1 = true ↔ e.state = .armed ∧ ∃ d ∈ e.desc, d.kind = .condition ∧ d.conforming e.rt.shadow = true) ∧
      flags.getLsbD 2 = e.rt.windowTripped ∧
      (e.state ≠ .fetching → flags.extractLsb' 3 2 = 0) ∧ flags.extractLsb' 5 3 = 0 ∧
      (s.trafficSound → e.state = .fetching → ∃ r ∈ s.port.list, r.entry = b.toNat ∧ r.orphaned = false ∧
        flags.extractLsb' 3 2 = if r.status = .issued then 2 else 1)

/-- READ EVENTS of k in 1 to 8 answers the count and the first records, head first, 24 bytes each; k outside gives BAD_PARAM
1; neither changes anything. The bytes of a record are those of Table 9-6: sequence, kind by its code of Table 9-7, class,
entry, presence, tick, address, lanes with disposition, old, new, detail, each field most significant byte first and an absent
one zero; bit f of the presence byte, f from 0, says whether entry, address, lanes, old, new, disposition or detail is there. -/
def Obligations.ReadEventsAnswersTheHead : Prop :=
  (∀ r : Record,
    let ev := r.event
    let part := fun (w : Nat) (v : BitVec w) (i : Nat) => v.extractLsb' (8 * i) 8
    ∃ presence lanes : Byte,
      r.bytes =
        [part 16 r.sequence 1, part 16 r.sequence 0,
          (match ev.kind with
            | .conditionBroken => 0x01 | .countExhausted => 0x02 | .rateExceeded => 0x03 | .deadlineLapsed => 0x04
            | .deadlineResumed => 0x05 | .readbackDiverged => 0x06 | .fetchFailed => 0x07 | .hostReset => 0x08
            | .memoryError => 0x09 | .memoryTimeout => 0x0A | .timebaseFallback => 0x0B),
          BitVec.ofNat 8 ev.cls.val, BitVec.ofNat 8 (ev.entry.getD 0), presence,
          part 32 ev.tick 3, part 32 ev.tick 2, part 32 ev.tick 1, part 32 ev.tick 0,
          part 24 (ev.address.getD 0) 2, part 24 (ev.address.getD 0) 1, part 24 (ev.address.getD 0) 0, lanes,
          part 32 (ev.old.getD 0) 3, part 32 (ev.old.getD 0) 2, part 32 (ev.old.getD 0) 1, part 32 (ev.old.getD 0) 0,
          part 32 (ev.new.getD 0) 3, part 32 (ev.new.getD 0) 2, part 32 (ev.new.getD 0) 1, part 32 (ev.new.getD 0) 0,
          part 16 (ev.detail.getD 0) 1, part 16 (ev.detail.getD 0) 0] ∧
      (presence.getLsbD 0 = ev.entry.isSome ∧ presence.getLsbD 1 = ev.address.isSome ∧
        presence.getLsbD 2 = ev.lanes.isSome ∧ presence.getLsbD 3 = ev.old.isSome ∧
        presence.getLsbD 4 = ev.new.isSome ∧ presence.getLsbD 5 = ev.disposition.isSome ∧
        presence.getLsbD 6 = ev.detail.isSome ∧ presence.getLsbD 7 = false) ∧
      lanes.extractLsb' 0 4 = ev.lanes.getD 0 ∧ lanes.extractLsb' 6 2 = 0 ∧
      lanes.extractLsb' 4 2 =
        match ev.disposition with
        | none => 0
        | some .passed => 0
        | some .dropped => 1
        | some .rejected => 2) ∧
  ∀ (s : State) (k : Byte), s.link.awaits 0x30 [k] = true →
    (1 ≤ k.toNat → k.toNat ≤ 8 →
      ∃ block : List Byte,
        exec (.readEvents [k]) s =
          .next { s with link := s.link.checked 0x30 [k] (.ok block), pins := s.pinsAfter 0, out := ⟨none, some 0⟩ } ∧
        block = byteOf (min k.toNat s.queue.records.length) ::
          ((s.queue.records.take k.toNat).map Record.bytes).flatten ∧
        block.length = 1 + 24 * min k.toNat s.queue.records.length) ∧
    (k.toNat < 1 ∨ 8 < k.toNat →
      exec (.readEvents [k]) s =
        .next { s with link := s.link.checked 0x30 [k] (.badParam 1), pins := s.pinsAfter 0, out := ⟨none, some 0⟩ })

/-! ## Requests that change the table -/

/-- R167: LOAD ENTRY. An entry that is neither EMPTY nor LOADED gives BAD_STATE with its state; a descriptor that fails gives
BAD_PARAM with the number, 1 to 13, of its first field that fails its check of Table 1-2, every field before it passing;
otherwise the entry is LOADED with the descriptor of these bytes and its start values and LOADED is answered. A refusal
leaves everything but the link and its pins. -/
def Obligations.LoadEntryChecksThenLoads : Prop :=
  ∀ (s : State) (b : Byte) (bytes : List Byte), s.link.awaits 0x10 (b :: bytes) = true → bytes.length = 24 →
    b.toNat < 48 →
    let e := s.entry b.toNat
    let answer := fun (u : State) (r : Reply) =>
      Host.Outcome.next { u with link := s.link.checked 0x10 (b :: bytes) r, pins := s.pinsAfter 0, out := ⟨none, some 0⟩ }
    let c := Instr.loadEntry (b :: bytes)
    (e.state ≠ .empty → e.state ≠ .loaded → exec c s = answer s (.badState e.state)) ∧
    (e.state = .empty ∨ e.state = .loaded →
      (∀ n, checkDescriptor bytes = .error n → 1 ≤ n ∧ n ≤ 13 ∧ (∀ m, 1 ≤ m → m < n → fieldPasses bytes m = true) ∧
        fieldPasses bytes n = false ∧ exec c s = answer s (.badParam n)) ∧
      (∀ n, 1 ≤ n → n ≤ 13 → (∀ m, 1 ≤ m → m < n → fieldPasses bytes m = true) → fieldPasses bytes n = false →
        exec c s = answer s (.badParam n)) ∧
      ((∀ n, 1 ≤ n → n ≤ 13 → fieldPasses bytes n = true) → ∃ d, checkDescriptor bytes = .ok d ∧ d.bytes = bytes) ∧
      ∀ d, checkDescriptor bytes = .ok d → s.entries.length = 48 → d.valid = true ∧
        exec c s = answer { s with entries := s.entries.set b.toNat ⟨.loaded, some d, d.startValues⟩ } (.ok [1]))

/-- The 24 bytes of a valid descriptor are read back as that descriptor; and bytes that are read as a descriptor are its
bytes, and it is valid. -/
def Obligations.DescriptorBytesRoundTrip : Prop :=
  (∀ d : Descriptor, d.valid = true → d.bytes.length = 24 ∧ checkDescriptor d.bytes = .ok d) ∧
  ∀ (bytes : List Byte) (d : Descriptor), bytes.length = 24 → checkDescriptor bytes = .ok d →
    d.valid = true ∧ d.bytes = bytes

/-- ARM ENTRY on a LOADED entry: without a shadow ARMED at its start values; with one FETCHING where MONITORING finds room,
else PENDING. RESYNC ENTRY on an ARMED shadow-bearing entry: FETCHING where there is room, else PENDING, at its start values.
The answer is the state just after; no other entry, no record and no line changes, and a held beat stays held on the covering
and blocking entries of the table just after. The request of an entry that became FETCHING has joined the list at the tail,
QUEUED and not orphaned, the blocking entries' requests promoted while a beat is held; an access on the bus goes on, and a
free bus is granted at once. On any other entry each gives BAD_STATE. That the recorded sets of a held beat are those of the
table just after is the model's reading (log 14). -/
def Obligations.ArmAndResyncBeginFetches : Prop :=
  ∀ (s : State) (b : Byte), b.toNat < 48 →
    let i := b.toNat
    let e := s.entry i
    let quietly := fun (t : State) =>
      t = { s with entries := t.entries, checker := t.checker, port := t.port, link := t.link, pins := s.pinsAfter 0, out := ⟨none, some 0⟩ } ∧
        s.carriesOn t s.port.list s.host ∧
        t.checker = s.beatAtChecker.map fun b =>
          ⟨coveringOf t.entries b.addr b.op.dir, blockingOf t.entries b.addr b.op.dir⟩
    (s.link.awaits 0x11 [b] = true → e.state ≠ .loaded →
      exec (.armEntry [b]) s =
        .next { s with link := s.link.checked 0x11 [b] (.badState e.state), pins := s.pinsAfter 0, out := ⟨none, some 0⟩ }) ∧
    (s.link.awaits 0x11 [b] = true → s.trafficSound → e.state = .loaded → ∃ t, exec (.armEntry [b]) s = .next t ∧
      quietly t ∧ t.link = s.link.checked 0x11 [b] (.ok [(t.entry i).state.code]) ∧
      (∀ j, j ≠ i → t.entry j = s.entry j) ∧
      (e.shadowBearing = false → t.entry i = e.restarted .armed) ∧
      (e.shadowBearing = true → s.mode = .monitoring → s.port.list.length < 8 → t.entry i = e.restarted .fetching) ∧
      (e.shadowBearing = true → s.mode = .suspended ∨ s.port.list.length = 8 → t.entry i = e.restarted .pending)) ∧
    (s.link.awaits 0x14 [b] = true → ¬(e.shadowBearing = true ∧ e.state = .armed) →
      exec (.resyncEntry [b]) s =
        .next { s with link := s.link.checked 0x14 [b] (.badState e.state), pins := s.pinsAfter 0, out := ⟨none, some 0⟩ }) ∧
    (s.link.awaits 0x14 [b] = true → s.trafficSound → e.shadowBearing = true → e.state = .armed →
      ∃ t, exec (.resyncEntry [b]) s = .next t ∧
        quietly t ∧ t.link = s.link.checked 0x14 [b] (.ok [(t.entry i).state.code]) ∧
        (∀ j, j ≠ i → t.entry j = s.entry j) ∧
        (s.port.list.length < 8 → t.entry i = e.restarted .fetching) ∧
        (s.port.list.length = 8 → t.entry i = e.restarted .pending))

/-- DISARM ENTRY leaves a watching entry LOADED at its start values and gives BAD_STATE on EMPTY or LOADED; CLEAR ENTRY
leaves any entry EMPTY. Each gives up the entry's fetch, its QUEUED request removed and its ISSUED one orphaned, has a held
beat examined again without the entry, and lets PENDING entries take the place, those that block the held beat first and then
in ascending index; the access on the bus stays. That the recorded sets of a held beat are those of the table just after is the
model's reading (log 14). -/
def Obligations.DisarmAndClearGiveUpTheFetch : Prop :=
  ∀ (s : State) (b : Byte), s.trafficSound → b.toNat < 48 →
    let i := b.toNat
    let e := s.entry i
    let left := fun (f : Entry) (t : State) =>
      t = { s with entries := t.entries, checker := t.checker, host := t.host, port := t.port, queue := t.queue
                   alerts := t.alerts, link := t.link, pins := s.pinsAfter 0, out := ⟨none, some 0⟩ } ∧
      s.reexamined (s.entries.set i f) t t.host ∧ t.filledInOrder (s.entries.set i f) ∧ t.entry i = f ∧
      t.port.list = s.refilled t
        ((s.port.list.filter fun r => !(decide (r.entry = i) && decide (r.status = .queued))).map fun r =>
          if r.entry = i then { r with orphaned := true } else r) ∧
      t.port.bus = s.port.bus ∧ t.port.lastGrant = s.port.lastGrant ∧
      (∀ r ∈ t.port.list, r.entry = i → r.orphaned = true) ∧
      ∀ j, j ≠ i → s.beatAtChecker = none → (s.entry j).filled (t.entry j)
    (s.link.awaits 0x12 [b] = true → e.state = .empty ∨ e.state = .loaded →
      exec (.disarmEntry [b]) s =
        .next { s with link := s.link.checked 0x12 [b] (.badState e.state), pins := s.pinsAfter 0, out := ⟨none, some 0⟩ }) ∧
    (s.link.awaits 0x12 [b] = true → ¬(e.state = .empty ∨ e.state = .loaded) →
      ∃ t, exec (.disarmEntry [b]) s = .next t ∧ t.link = s.link.checked 0x12 [b] (.ok [1]) ∧
        left (e.restarted .loaded) t) ∧
    (s.link.awaits 0x13 [b] = true →
      ∃ t, exec (.clearEntry [b]) s = .next t ∧ t.link = s.link.checked 0x13 [b] (.ok [0]) ∧ left Entry.empty t)

/-- SUSPEND in MONITORING: every ARMED or FETCHING shadow-bearing entry becomes PENDING at its start values and no other entry
changes, QUEUED requests go and an ISSUED one is orphaned, a held beat is released PASSED unchecked, no event is raised.
RESUME in SUSPENDED: PENDING entries take the free places in ascending index, no other entry changes. Their requests stand
behind the list as it was, in ascending index, QUEUED and not orphaned; an access on the bus goes on, and a free bus is granted.
Each answers the mode and the occupancy just after; each gives BAD_MODE in the other mode. -/
def Obligations.SuspendAndResumeChangeTheMode : Prop :=
  ∀ s : State, s.trafficSound →
    (s.link.awaits 0x20 [] = true → s.mode = .monitoring → ∃ t, exec (.suspend []) s = .next t ∧
      t = { s with mode := .suspended, entries := t.entries, checker := none
                   host := s.host.map Transaction.released
                   port := { s.port with list := t.port.list }
                   link := s.link.checked 0x20 [] (.ok [1, byteOf t.port.list.length]), pins := s.pinsAfter 0, out := ⟨none, some 0⟩ } ∧
      t.port.list = (s.port.list.filter fun r => decide (r.status = .issued)).map (fun r => { r with orphaned := true }) ∧
      ∀ i, t.entry i =
        if (s.entry i).shadowBearing = true ∧ ((s.entry i).state = .armed ∨ (s.entry i).state = .fetching) then
          (s.entry i).restarted .pending
        else s.entry i) ∧
    (s.link.awaits 0x20 [] = true → s.mode = .suspended →
      exec (.suspend []) s = .next { s with link := s.link.checked 0x20 [] (.badMode .suspended), pins := s.pinsAfter 0, out := ⟨none, some 0⟩ }) ∧
    (s.link.awaits 0x21 [] = true → s.mode = .suspended → ∃ t, exec (.resume []) s = .next t ∧
      t = { s with mode := .monitoring, entries := t.entries, port := t.port
                   link := s.link.checked 0x21 [] (.ok [0, byteOf t.port.list.length]), pins := s.pinsAfter 0, out := ⟨none, some 0⟩ } ∧
      s.carriesOn t s.port.list s.host ∧ (∀ i, (s.entry i).filled (t.entry i)) ∧
      ∀ j, (t.entry j).state = .pending → t.port.list.length = 8 ∧
        ∀ i, (s.entry i).state = .pending → (t.entry i).state = .fetching → i < j) ∧
    (s.link.awaits 0x21 [] = true → s.mode = .monitoring →
      exec (.resume []) s = .next { s with link := s.link.checked 0x21 [] (.badMode .monitoring), pins := s.pinsAfter 0, out := ⟨none, some 0⟩ })

/-! ## The queue and the alert lines -/

/-- R125: with fewer than 32 records an event is appended at the tail with the next sequence number; the count grows by one
and never passes 32. -/
def Obligations.EventIsAppendedWhileThereIsRoom : Prop :=
  ∀ (s : State) (ev : Event),
    (s.queue.records.length < 32 →
      (s.raiseOne ev).queue.records = s.queue.records ++ [⟨s.queue.next, ev⟩] ∧
      (s.raiseOne ev).queue.records.length = s.queue.records.length + 1 ∧
      (s.queue.records = [] → (s.raiseOne ev).queue.records.head? = some ⟨s.queue.next, ev⟩ ∧
        (s.raiseOne ev).queue.records.getLast? = some ⟨s.queue.next, ev⟩)) ∧
    (s.queue.records.length ≤ 32 → (s.raiseOne ev).queue.records.length ≤ 32)

/-- R126: in a full queue an event takes the place of the last-appended record of the greatest class above its own: that
record goes, its class's missed mark is set, the rest keep their order, and the new record is the tail. The evicted record's
class counts one less and the new record's one more; each of the two, in STROBE mode with its mask OPEN, starts a pulse of its
strobe length plus one; every line is then driven by its class's state, and nothing else changes in the alert unit. -/
def Obligations.UrgentEventEvictsTheLeastUrgent : Prop :=
  ∀ (s : State) (ev : Event), s.queue.records.length = 32 → (∃ r ∈ s.queue.records, ev.cls < r.cls) →
    let strobed := fun (k : ClassState) =>
      { k with pulse := if k.mode = .strobe ∧ k.maskOpen = true then k.strobeLength + 1 else k.pulse }
    ∃ (before : List Record) (x : Record) (behind : List Record),
      s.queue.records = before ++ x :: behind ∧
      (∀ r ∈ s.queue.records, r.cls ≤ x.cls) ∧ (∀ r ∈ behind, r.cls ≠ x.cls) ∧ ev.cls < x.cls ∧
      (s.raiseOne ev).queue.records = before ++ behind ++ [⟨s.queue.next, ev⟩] ∧
      (s.raiseOne ev).queue.records.length = 32 ∧
      ((s.raiseOne ev).alerts.get x.cls).missed = true ∧
      (s.raiseOne ev).alerts.get x.cls = ClassState.drive (strobed { s.alerts.get x.cls with
        count := (s.alerts.get x.cls).count - 1, missed := true }) ∧
      (s.raiseOne ev).alerts.get ev.cls = ClassState.drive (strobed { s.alerts.get ev.cls with
        count := (s.alerts.get ev.cls).count + 1 }) ∧
      ∀ c, c ≠ x.cls → c ≠ ev.cls → (s.raiseOne ev).alerts.get c = (s.alerts.get c).drive

/-- In a full queue without a less urgent record an event is discarded: no record changes and its class's missed mark is
set, which in STROBE mode with the mask OPEN starts a pulse of the strobe length plus one; every line is then driven by its
class's state. Every event taken, discarded or not, uses one sequence number, and keeps the part-event classes. -/
def Obligations.OtherEventIsDiscarded : Prop :=
  ∀ (s : State) (ev : Event),
    (s.queue.records.length = 32 → (∀ r ∈ s.queue.records, r.cls ≤ ev.cls) →
      (s.raiseOne ev).queue.records = s.queue.records ∧ ((s.raiseOne ev).alerts.get ev.cls).missed = true ∧
      (s.raiseOne ev).alerts.get ev.cls = ClassState.drive { s.alerts.get ev.cls with
        missed := true
        pulse := if (s.alerts.get ev.cls).mode = .strobe ∧ (s.alerts.get ev.cls).maskOpen = true then
            (s.alerts.get ev.cls).strobeLength + 1 else (s.alerts.get ev.cls).pulse } ∧
      ∀ c, c ≠ ev.cls → (s.raiseOne ev).alerts.get c = (s.alerts.get c).drive) ∧
    (s.raiseOne ev).queue.next = s.queue.next + 1 ∧ (s.raiseOne ev).queue.classes = s.queue.classes ∧
    s.raiseOne ev = { s with queue := (s.raiseOne ev).queue, alerts := (s.raiseOne ev).alerts }

/-- ACK EVENTS of a number ahead of the last assigned is refused with BAD_SEQ and that last number; otherwise the records at
the head that lie at or before the number go, up to the first that does not, and the numbers removed and left are answered. The
next number, the marks and the pulses stay, and each class count loses its records removed. That the number of a head 32769 to
65535 steps behind the last assigned is refused too, where R136 has it remove the head, is the model's choice (log 23). -/
def Obligations.AckEventsRemovesARunFromTheHead : Prop :=
  ∀ (s : State) (hi lo : Byte), s.link.awaits 0x31 [hi, lo] = true →
    let n : Seq := hi ++ lo
    let last := s.queue.next - 1
    let c := Instr.ackEvents [hi, lo]
    (1 ≤ (n - last).toNat → (n - last).toNat ≤ 32767 →
      exec c s = .next { s with link := s.link.checked 0x31 [hi, lo] (.badSeq last), pins := s.pinsAfter 0, out := ⟨none, some 0⟩ }) ∧
    ((n - last).toNat = 0 ∨ 32768 ≤ (n - last).toNat →
      ∃ (t : State) (gone left : List Record), exec c s = .next t ∧ s.queue.records = gone ++ left ∧
        (∀ r ∈ gone, (n - r.sequence).toNat < 32768) ∧ (∀ r ∈ left.head?, 32768 ≤ (n - r.sequence).toNat) ∧
        t = { s with queue := { s.queue with records := left }, alerts := t.alerts, pins := s.pinsAfter 0, out := ⟨none, some 0⟩
                     link := s.link.checked 0x31 [hi, lo] (.ok [byteOf gone.length, byteOf left.length]) } ∧
        ∀ k, t.alerts.get k = ClassState.drive
          { s.alerts.get k with count := (s.alerts.get k).count - gone.countP fun r => decide (r.cls = k) })

/-- A LEVEL line is asserted exactly when its mask is OPEN and the queue holds a record of the class or its mark is set. A
record appended adds one to its class's count and no other's; in STROBE mode with the mask OPEN it starts a pulse of the
strobe length plus one and asserts the line, and with the mask CLOSED none. The pin ALERTc is low exactly while the line of class
c is asserted. -/
def Obligations.LinesFollowTheQueue : Prop :=
  (∀ (s : State) (c : ClassNo), s.alertLow c = true ↔ (s.alerts.get c).line = true) ∧
  ∀ s : State, s.queueSound → s.alertSound →
    (∀ c, (s.alerts.get c).mode = .level →
      ((s.alerts.get c).line = true ↔
        (s.alerts.get c).maskOpen = true ∧ ((∃ r ∈ s.queue.records, r.cls = c) ∨ (s.alerts.get c).missed = true))) ∧
    ∀ ev : Event, s.queue.records.length < 32 →
      let k := s.alerts.get ev.cls
      let k1 := (s.raiseOne ev).alerts.get ev.cls
      k1.count = k.count + 1 ∧ k1.missed = k.missed ∧ k1.maskOpen = k.maskOpen ∧ k1.mode = k.mode ∧
      k1.strobeLength = k.strobeLength ∧
      (k.mode = .level → k1.line = k.maskOpen ∧ k1.pulse = 0) ∧
      (k.mode = .strobe → k.maskOpen = true → k1.pulse = k.strobeLength + 1 ∧ k1.line = true) ∧
      (k.mode = .strobe → k.maskOpen = false → k1.pulse = 0 ∧ k1.line = false) ∧
      ∀ c, c ≠ ev.cls → (s.raiseOne ev).alerts.get c = s.alerts.get c

/-- R148, R149: SET CLASS is checked field by field, the first that fails named in BAD_PARAM and nothing changed; accepted, it
sets mask, mode and strobe length of its class, keeps count and mark, leaves pulse and line as Table 7-2 gives, and answers
them; no other class changes. -/
def Obligations.SetClassFollowsTheTable : Prop :=
  ∀ (s : State) (f1 f2 f3 f4 : Byte), s.link.awaits 0x40 [f1, f2, f3, f4] = true →
    let refused := fun (n : Nat) => exec (.setClass [f1, f2, f3, f4]) s =
      .next { s with link := s.link.checked 0x40 [f1, f2, f3, f4] (.badParam n), pins := s.pinsAfter 0, out := ⟨none, some 0⟩ }
    (3 < f1.toNat → refused 1) ∧
    (f1.toNat ≤ 3 → 1 < f2.toNat → refused 2) ∧
    (f1.toNat ≤ 3 → f2.toNat ≤ 1 → 1 < f3.toNat → refused 3) ∧
    (f1.toNat ≤ 3 → f2.toNat ≤ 1 → f3.toNat ≤ 1 → f4.toNat = 0 ∨ 15 < f4.toNat → refused 4) ∧
    (∀ c : ClassNo, f1.toNat = c.val → f2.toNat ≤ 1 → f3.toNat ≤ 1 → 1 ≤ f4.toNat → f4.toNat ≤ 15 →
      ∃ t, exec (.setClass [f1, f2, f3, f4]) s = .next t ∧
        let old := s.alerts.get c
        let k := t.alerts.get c
        t = { s with alerts := t.alerts, pins := s.pinsAfter 0, out := ⟨none, some 0⟩
                     link := s.link.checked 0x40 [f1, f2, f3, f4]
                       (.ok [f1, f2, f3, f4, if k.missed then 1 else 0, if k.line then 1 else 0]) } ∧
        (∀ o, o ≠ c → t.alerts.get o = s.alerts.get o) ∧
        k.maskOpen = decide (f2 = 1) ∧ k.mode = (if f3 = 1 then .strobe else .level) ∧ k.strobeLength = f4.toNat ∧
        k.missed = old.missed ∧ k.count = old.count ∧
        (f2 = 0 → k.pulse = 0 ∧ k.line = false) ∧
        (f2 = 1 → f3 = 0 → k.pulse = 0 ∧ k.line = (decide (0 < old.count) || old.missed)) ∧
        (f2 = 1 → f3 = 1 → old.maskOpen = true → old.mode = .strobe →
          k.pulse = old.pulse ∧ k.line = decide (0 < old.pulse)) ∧
        (f2 = 1 → f3 = 1 → old.maskOpen = false ∨ old.mode = .level → k.pulse = 0 ∧ k.line = false))

/-- CLEAR MISSED clears the marks of its set and no other: a LEVEL line then shows whether records of the class are held, a
STROBE line stays; bits above the classes give BAD_PARAM 1. SET PART CLASSES names the first field above 3 in BAD_PARAM, else
replaces the four assignments and answers them, the records kept. RESET PART answers OK and only sets reset pending. -/
def Obligations.SettingsRequestsChangeTheirSettings : Prop :=
  (∀ (s : State) (set : Byte), s.link.awaits 0x41 [set] = true →
    (16 ≤ set.toNat → exec (.clearMissed [set]) s =
      .next { s with link := s.link.checked 0x41 [set] (.badParam 1), pins := s.pinsAfter 0, out := ⟨none, some 0⟩ }) ∧
    (set.toNat < 16 → s.alertSound → ∃ t, exec (.clearMissed [set]) s = .next t ∧
      t = { s with alerts := t.alerts, pins := s.pinsAfter 0, out := ⟨none, some 0⟩
                   link := s.link.checked 0x41 [set] (.ok
                     [setByte fun c => (t.alerts.get c).missed, setByte fun c => (t.alerts.get c).line]) } ∧
      ∀ c : ClassNo,
        (set.getLsbD c.val = false → t.alerts.get c = s.alerts.get c) ∧
        (set.getLsbD c.val = true → t.alerts.get c = { s.alerts.get c with
          missed := false
          line := if (s.alerts.get c).mode = .level then
              (s.alerts.get c).maskOpen && decide (0 < (s.alerts.get c).count) else (s.alerts.get c).line }))) ∧
  (∀ (s : State) (f1 f2 f3 f4 : Byte), s.link.awaits 0x42 [f1, f2, f3, f4] = true →
    let refused := fun (n : Nat) => exec (.setPartClasses [f1, f2, f3, f4]) s =
      .next { s with link := s.link.checked 0x42 [f1, f2, f3, f4] (.badParam n), pins := s.pinsAfter 0, out := ⟨none, some 0⟩ }
    (3 < f1.toNat → refused 1) ∧ (f1.toNat ≤ 3 → 3 < f2.toNat → refused 2) ∧
    (f1.toNat ≤ 3 → f2.toNat ≤ 3 → 3 < f3.toNat → refused 3) ∧
    (f1.toNat ≤ 3 → f2.toNat ≤ 3 → f3.toNat ≤ 3 → 3 < f4.toNat → refused 4) ∧
    (∀ a b c d : ClassNo, f1.toNat = a.val → f2.toNat = b.val → f3.toNat = c.val → f4.toNat = d.val →
      exec (.setPartClasses [f1, f2, f3, f4]) s = .next { s with
        queue := { s.queue with classes := ⟨a, b, c, d⟩ }
        link := s.link.checked 0x42 [f1, f2, f3, f4] (.ok [f1, f2, f3, f4]), pins := s.pinsAfter 0, out := ⟨none, some 0⟩ })) ∧
  ∀ s : State, s.link.awaits 0x60 [] = true →
    exec (.resetPart []) s = .next { s with
      link := { s.link.checked 0x60 [] (.ok []) with resetPending := true }, pins := s.pinsAfter 0, out := ⟨none, some 0⟩ }

/-! ## What the host cannot reach -/

/-- Host traffic and memory's answers leave every setting of the supervisor as it was: mode, descriptors, class settings,
part-event classes, time base, link and pins. -/
def Obligations.HostTrafficReachesNoSetting : Prop :=
  ∀ (c : Instr) (s t : State),
    ((∃ start hdir hlen data strobes, c = .transactionRequestTaken start hdir hlen data strobes) ∨
      (∃ data strobes, c = .beatTaken data strobes) ∨ (∃ data error, c = .memoryReady data error) ∨ c = .responseLimit) →
    exec c s = .next t →
    t.power = s.power ∧ t.pins = s.pins ∧ t.mode = s.mode ∧ t.time = s.time ∧ t.link = s.link ∧
      t.queue.classes = s.queue.classes ∧ t.entries.map Entry.desc = s.entries.map Entry.desc ∧
      ∀ k, (t.alerts.get k).maskOpen = (s.alerts.get k).maskOpen ∧ (t.alerts.get k).mode = (s.alerts.get k).mode ∧
        (t.alerts.get k).strobeLength = (s.alerts.get k).strobeLength
end

