-- ==== Sys2Proof/Laws/Flags.lean ====
section
/-! SUPPORT. The alert unit class by class: every operation is said once for the class it reaches and for the others. -/

namespace Sys2Proof.Machine

@[simp] theorem AlertUnit.get_set (a : AlertUnit) (c d : ClassNo) (k : ClassState) :
    (a.set c k).get d = if c = d then k else a.get d := by
  revert c d; intro c d
  match c, d with
  | 0, 0 | 0, 1 | 0, 2 | 0, 3 | 1, 0 | 1, 1 | 1, 2 | 1, 3 | 2, 0 | 2, 1 | 2, 2 | 2, 3 | 3, 0 | 3, 1 | 3, 2 | 3, 3 => rfl

@[simp] theorem AlertUnit.get_mapAll (f : ClassState → ClassState) (a : AlertUnit) (c : ClassNo) :
    (a.mapAll f).get c = f (a.get c) := by
  match c with
  | 0 | 1 | 2 | 3 => rfl

@[simp] theorem ClassState.drive_count (k : ClassState) : k.drive.count = k.count := rfl
@[simp] theorem ClassState.drive_missed (k : ClassState) : k.drive.missed = k.missed := rfl
@[simp] theorem ClassState.drive_maskOpen (k : ClassState) : k.drive.maskOpen = k.maskOpen := rfl
@[simp] theorem ClassState.drive_mode (k : ClassState) : k.drive.mode = k.mode := rfl
@[simp] theorem ClassState.drive_strobeLength (k : ClassState) : k.drive.strobeLength = k.strobeLength := rfl
@[simp] theorem ClassState.drive_pulse (k : ClassState) : k.drive.pulse = k.pulse := rfl

/-- A driven line shows the class's state. -/
@[simp] theorem ClassState.drive_line (k : ClassState) : k.drive.line = k.drive.lineValue := rfl

@[simp] theorem ClassState.startPulse_count (k : ClassState) : k.startPulse.count = k.count := by
  unfold ClassState.startPulse; split <;> rfl

@[simp] theorem ClassState.startPulse_settings (k : ClassState) :
    k.startPulse.maskOpen = k.maskOpen ∧ k.startPulse.mode = k.mode ∧ k.startPulse.strobeLength = k.strobeLength ∧
      k.startPulse.missed = k.missed := by
  unfold ClassState.startPulse; split <;> simp

/-- The class that a change names. -/
def AlertChange.cls : AlertChange → ClassNo
  | .appended c | .removed c | .marked c => c

/-- What a change does to the count of its class. -/
def AlertChange.count (n : Nat) : AlertChange → Nat
  | .appended _ => n + 1
  | .removed _ => n - 1
  | .marked _ => n

/-- One change moves the count of its class alone. -/
theorem AlertUnit.change_count (a : AlertUnit) (ch : AlertChange) (c : ClassNo) :
    ((a.change ch).get c).count = if ch.cls = c then ch.count (a.get c).count else (a.get c).count := by
  cases ch <;> simp only [AlertUnit.change, AlertUnit.get_set, AlertChange.cls, AlertChange.count] <;> split <;> simp_all

/-- Driving the lines moves no count. -/
@[simp] theorem AlertUnit.take_count (a : AlertUnit) (chs : List AlertChange) (c : ClassNo) :
    ((a.take chs).get c).count = ((chs.foldl AlertUnit.change a).get c).count := by
  simp [AlertUnit.take]

end Sys2Proof.Machine
end

