-- ==== Sys2Proof/Laws/Events.lean ====
section
/-! SUPPORT. Taking an event: the cases of R125 to R127, each said once. -/

namespace Sys2Proof.Machine

/-- R123: every event taken uses one sequence number, whatever becomes of it. -/
@[simp] theorem EventQueue.takeEvent_next (q : EventQueue) (ev : Event) : (q.takeEvent ev).1.next = q.next + 1 := by
  unfold EventQueue.takeEvent; split
  · rfl
  · dsimp only; split <;> rfl

@[simp] theorem EventQueue.takeEvent_classes (q : EventQueue) (ev : Event) : (q.takeEvent ev).1.classes = q.classes := by
  unfold EventQueue.takeEvent; split
  · rfl
  · dsimp only; split <;> rfl

/-- R125: room in the queue. -/
theorem EventQueue.takeEvent_append {q : EventQueue} (ev : Event) (h : q.records.length < queueCapacity) :
    q.takeEvent ev = ({ q with records := q.records ++ [⟨q.next, ev⟩], next := q.next + 1 }, [.appended ev.cls]) := by
  simp [EventQueue.takeEvent, h]

/-- R126: a full queue with a less urgent record. -/
theorem EventQueue.takeEvent_evict {q : EventQueue} {ev : Event} (h : queueCapacity ≤ q.records.length)
    (hc : ev.cls < greatestClass q.records) :
    q.takeEvent ev =
      ({ q with
          records := removeLastOf (greatestClass q.records) q.records ++ [⟨q.next, ev⟩]
          next := q.next + 1 },
        [.removed (greatestClass q.records), .marked (greatestClass q.records), .appended ev.cls]) := by
  simp [EventQueue.takeEvent, Nat.not_lt.mpr h, hc]

/-- R127: a full queue without a less urgent record. -/
theorem EventQueue.takeEvent_discard {q : EventQueue} {ev : Event} (h : queueCapacity ≤ q.records.length)
    (hc : ¬ev.cls < greatestClass q.records) :
    q.takeEvent ev = ({ q with next := q.next + 1 }, [.marked ev.cls]) := by
  simp [EventQueue.takeEvent, Nat.not_lt.mpr h, hc]

theorem greatestClass_spec (rs : List Record) (c : ClassNo) :
    (∀ r ∈ rs, r.cls ≤ rs.foldl (fun c r => max c r.cls) c) ∧ c ≤ rs.foldl (fun c r => max c r.cls) c ∧
      (rs.foldl (fun c r => max c r.cls) c = c ∨ ∃ r ∈ rs, r.cls = rs.foldl (fun c r => max c r.cls) c) := by
  induction rs generalizing c with
  | nil => simp
  | cons r rs ih =>
    obtain ⟨h1, h2, h3⟩ := ih (max c r.cls)
    refine ⟨?_, le_trans (le_max_left _ _) h2, ?_⟩
    · intro x hx
      rcases List.mem_cons.mp hx with rfl | hx
      · exact le_trans (le_max_right _ _) h2
      · exact h1 x hx
    · rcases h3 with h3 | ⟨x, hx, h3⟩
      · simp only [List.foldl_cons]
        rcases max_choice c r.cls with h | h
        · exact .inl (h3.trans h)
        · exact .inr ⟨r, by simp, by rw [h3, h]⟩
      · exact .inr ⟨x, by simp [hx], h3⟩

/-- A class greater than some class is held when it is the greatest of a queue (R126). -/
theorem exists_of_lt_greatestClass {rs : List Record} {c : ClassNo} (h : c < greatestClass rs) :
    ∃ r ∈ rs, r.cls = greatestClass rs := by
  obtain ⟨-, -, h3⟩ := greatestClass_spec rs 0
  rcases h3 with h3 | h3
  · exact absurd (show c < 0 from h3 ▸ h) (by simp)
  · exact h3

/-- Removing a held record of a class takes one away from that class's number and from the length. -/
theorem removeLastOf_spec {rs : List Record} {c : ClassNo} (h : ∃ r ∈ rs, r.cls = c) :
    (removeLastOf c rs).length + 1 = rs.length ∧
      ∀ d : ClassNo, (removeLastOf c rs).countP (fun r => decide (r.cls = d)) + (if c = d then 1 else 0) =
        rs.countP fun r => decide (r.cls = d) := by
  obtain ⟨r, hr, hc⟩ := h
  have hex : ∃ a ∈ rs.reverse, decide (a.cls = c) = true := ⟨r, by simpa using hr, by simp [hc]⟩
  obtain ⟨a, ha, hpa⟩ := hex
  obtain ⟨a, l₁, l₂, -, hpa, hl, he⟩ := List.exists_of_eraseP (p := fun r : Record => decide (r.cls = c)) ha hpa
  have hac : a.cls = c := by simpa using hpa
  have hrs : rs = l₂.reverse ++ a :: l₁.reverse := by
    have := congrArg List.reverse hl
    simpa using this
  have hrem : removeLastOf c rs = l₂.reverse ++ l₁.reverse := by simp [removeLastOf, he]
  constructor
  · rw [hrem, hrs]; simp; omega
  · intro d
    rw [hrem, hrs]
    by_cases hd : c = d
    · subst hd; simp [List.countP_append, hac]; omega
    · simp [List.countP_append, hac, hd]

/-- A group of no events changes nothing. -/
@[simp] theorem State.raise_nil (s : State) : s.raise [] = s := rfl

@[simp] theorem State.raise_cons (s : State) (ev : Event) (evs : List Event) :
    s.raise (ev :: evs) = (s.raiseOne ev).raise evs := rfl

/-- Raising events reaches the queue and the alert unit alone. -/
theorem State.raise_frame (s : State) (evs : List Event) :
    s.raise evs = { s with queue := (s.raise evs).queue, alerts := (s.raise evs).alerts } := by
  induction evs generalizing s with
  | nil => rfl
  | cons ev evs ih => rw [State.raise_cons, ih]; rfl

@[simp] theorem State.raise_power (s : State) (evs : List Event) : (s.raise evs).power = s.power := by rw [s.raise_frame]
@[simp] theorem State.raise_pins (s : State) (evs : List Event) : (s.raise evs).pins = s.pins := by rw [s.raise_frame]
@[simp] theorem State.raise_mode (s : State) (evs : List Event) : (s.raise evs).mode = s.mode := by rw [s.raise_frame]
@[simp] theorem State.raise_entries (s : State) (evs : List Event) : (s.raise evs).entries = s.entries := by
  rw [s.raise_frame]
@[simp] theorem State.raise_checker (s : State) (evs : List Event) : (s.raise evs).checker = s.checker := by
  rw [s.raise_frame]
@[simp] theorem State.raise_host (s : State) (evs : List Event) : (s.raise evs).host = s.host := by rw [s.raise_frame]
@[simp] theorem State.raise_port (s : State) (evs : List Event) : (s.raise evs).port = s.port := by rw [s.raise_frame]
@[simp] theorem State.raise_time (s : State) (evs : List Event) : (s.raise evs).time = s.time := by rw [s.raise_frame]
@[simp] theorem State.raise_link (s : State) (evs : List Event) : (s.raise evs).link = s.link := by rw [s.raise_frame]
@[simp] theorem State.raise_out (s : State) (evs : List Event) : (s.raise evs).out = s.out := by rw [s.raise_frame]
@[simp] theorem State.raise_idles (s : State) (evs : List Event) : (s.raise evs).idles = s.idles := by rw [s.raise_frame]
@[simp] theorem State.raise_pending (s : State) (evs : List Event) : (s.raise evs).pending = s.pending := by
  rw [s.raise_frame]

/-- The part-event classes are no matter of events. -/
@[simp] theorem State.raise_classes (s : State) (evs : List Event) : (s.raise evs).queue.classes = s.queue.classes := by
  induction evs generalizing s with
  | nil => rfl
  | cons ev evs ih => rw [State.raise_cons, ih]; simp [State.raiseOne]

end Sys2Proof.Machine
end

