-- ==== Sys2Proof/Laws/State.lean ====
section
/-! SUPPORT. Every field after each plain update of State: unchanged, or the new value; all true by unfolding. -/

namespace Sys2Proof.Machine

@[simp] theorem State.quiet_power (s : State) : s.quiet.power = s.power := rfl
@[simp] theorem State.quiet_pins (s : State) : s.quiet.pins = s.pins := rfl
@[simp] theorem State.quiet_mode (s : State) : s.quiet.mode = s.mode := rfl
@[simp] theorem State.quiet_entries (s : State) : s.quiet.entries = s.entries := rfl
@[simp] theorem State.quiet_checker (s : State) : s.quiet.checker = s.checker := rfl
@[simp] theorem State.quiet_host (s : State) : s.quiet.host = s.host := rfl
@[simp] theorem State.quiet_port (s : State) : s.quiet.port = s.port := rfl
@[simp] theorem State.quiet_time (s : State) : s.quiet.time = s.time := rfl
@[simp] theorem State.quiet_queue (s : State) : s.quiet.queue = s.queue := rfl
@[simp] theorem State.quiet_alerts (s : State) : s.quiet.alerts = s.alerts := rfl
@[simp] theorem State.quiet_link (s : State) : s.quiet.link = s.link := rfl
@[simp] theorem State.quiet_out (s : State) : s.quiet.out = .none := rfl
@[simp] theorem State.quiet_idles (s : State) : s.quiet.idles = s.idles := rfl
@[simp] theorem State.quiet_pending (s : State) : s.quiet.pending = s.pending := rfl

@[simp] theorem State.hold_power (s : State) (a : HostAnswer) : (s.hold a).power = s.power := rfl
@[simp] theorem State.hold_pins (s : State) (a : HostAnswer) : (s.hold a).pins = s.pins := rfl
@[simp] theorem State.hold_mode (s : State) (a : HostAnswer) : (s.hold a).mode = s.mode := rfl
@[simp] theorem State.hold_entries (s : State) (a : HostAnswer) : (s.hold a).entries = s.entries := rfl
@[simp] theorem State.hold_checker (s : State) (a : HostAnswer) : (s.hold a).checker = s.checker := rfl
@[simp] theorem State.hold_port (s : State) (a : HostAnswer) : (s.hold a).port = s.port := rfl
@[simp] theorem State.hold_time (s : State) (a : HostAnswer) : (s.hold a).time = s.time := rfl
@[simp] theorem State.hold_queue (s : State) (a : HostAnswer) : (s.hold a).queue = s.queue := rfl
@[simp] theorem State.hold_alerts (s : State) (a : HostAnswer) : (s.hold a).alerts = s.alerts := rfl
@[simp] theorem State.hold_link (s : State) (a : HostAnswer) : (s.hold a).link = s.link := rfl
@[simp] theorem State.hold_out (s : State) (a : HostAnswer) : (s.hold a).out = s.out := rfl
@[simp] theorem State.hold_idles (s : State) (a : HostAnswer) : (s.hold a).idles = s.idles := rfl
@[simp] theorem State.hold_pending (s : State) (a : HostAnswer) : (s.hold a).pending = s.pending := rfl
@[simp] theorem State.hold_host (s : State) (a : HostAnswer) : (s.hold a).host = s.host.map fun t => { t with held := some a } := rfl

@[simp] theorem State.setEntry_power (s : State) (i : Nat) (e : Entry) : (s.setEntry i e).power = s.power := rfl
@[simp] theorem State.setEntry_pins (s : State) (i : Nat) (e : Entry) : (s.setEntry i e).pins = s.pins := rfl
@[simp] theorem State.setEntry_mode (s : State) (i : Nat) (e : Entry) : (s.setEntry i e).mode = s.mode := rfl
@[simp] theorem State.setEntry_entries (s : State) (i : Nat) (e : Entry) : (s.setEntry i e).entries = s.entries.set i e := rfl
@[simp] theorem State.setEntry_checker (s : State) (i : Nat) (e : Entry) : (s.setEntry i e).checker = s.checker := rfl
@[simp] theorem State.setEntry_host (s : State) (i : Nat) (e : Entry) : (s.setEntry i e).host = s.host := rfl
@[simp] theorem State.setEntry_port (s : State) (i : Nat) (e : Entry) : (s.setEntry i e).port = s.port := rfl
@[simp] theorem State.setEntry_time (s : State) (i : Nat) (e : Entry) : (s.setEntry i e).time = s.time := rfl
@[simp] theorem State.setEntry_queue (s : State) (i : Nat) (e : Entry) : (s.setEntry i e).queue = s.queue := rfl
@[simp] theorem State.setEntry_alerts (s : State) (i : Nat) (e : Entry) : (s.setEntry i e).alerts = s.alerts := rfl
@[simp] theorem State.setEntry_link (s : State) (i : Nat) (e : Entry) : (s.setEntry i e).link = s.link := rfl
@[simp] theorem State.setEntry_out (s : State) (i : Nat) (e : Entry) : (s.setEntry i e).out = s.out := rfl
@[simp] theorem State.setEntry_idles (s : State) (i : Nat) (e : Entry) : (s.setEntry i e).idles = s.idles := rfl
@[simp] theorem State.setEntry_pending (s : State) (i : Nat) (e : Entry) : (s.setEntry i e).pending = s.pending := rfl

@[simp] theorem State.placeRequest_power (s : State) (i : Nat) : (s.placeRequest i).power = s.power := rfl
@[simp] theorem State.placeRequest_pins (s : State) (i : Nat) : (s.placeRequest i).pins = s.pins := rfl
@[simp] theorem State.placeRequest_mode (s : State) (i : Nat) : (s.placeRequest i).mode = s.mode := rfl
@[simp] theorem State.placeRequest_entries (s : State) (i : Nat) : (s.placeRequest i).entries = s.entries.set i { s.entry i with state := .fetching } := rfl
@[simp] theorem State.placeRequest_checker (s : State) (i : Nat) : (s.placeRequest i).checker = s.checker := rfl
@[simp] theorem State.placeRequest_host (s : State) (i : Nat) : (s.placeRequest i).host = s.host := rfl
@[simp] theorem State.placeRequest_time (s : State) (i : Nat) : (s.placeRequest i).time = s.time := rfl
@[simp] theorem State.placeRequest_queue (s : State) (i : Nat) : (s.placeRequest i).queue = s.queue := rfl
@[simp] theorem State.placeRequest_alerts (s : State) (i : Nat) : (s.placeRequest i).alerts = s.alerts := rfl
@[simp] theorem State.placeRequest_link (s : State) (i : Nat) : (s.placeRequest i).link = s.link := rfl
@[simp] theorem State.placeRequest_out (s : State) (i : Nat) : (s.placeRequest i).out = s.out := rfl
@[simp] theorem State.placeRequest_idles (s : State) (i : Nat) : (s.placeRequest i).idles = s.idles := rfl
@[simp] theorem State.placeRequest_pending (s : State) (i : Nat) : (s.placeRequest i).pending = s.pending := rfl

@[simp] theorem State.setBeatState_power (s : State) (b : BeatState) : (s.setBeatState b).power = s.power := rfl
@[simp] theorem State.setBeatState_pins (s : State) (b : BeatState) : (s.setBeatState b).pins = s.pins := rfl
@[simp] theorem State.setBeatState_mode (s : State) (b : BeatState) : (s.setBeatState b).mode = s.mode := rfl
@[simp] theorem State.setBeatState_entries (s : State) (b : BeatState) : (s.setBeatState b).entries = s.entries := rfl
@[simp] theorem State.setBeatState_checker (s : State) (b : BeatState) : (s.setBeatState b).checker = s.checker := rfl
@[simp] theorem State.setBeatState_port (s : State) (b : BeatState) : (s.setBeatState b).port = s.port := rfl
@[simp] theorem State.setBeatState_time (s : State) (b : BeatState) : (s.setBeatState b).time = s.time := rfl
@[simp] theorem State.setBeatState_queue (s : State) (b : BeatState) : (s.setBeatState b).queue = s.queue := rfl
@[simp] theorem State.setBeatState_alerts (s : State) (b : BeatState) : (s.setBeatState b).alerts = s.alerts := rfl
@[simp] theorem State.setBeatState_link (s : State) (b : BeatState) : (s.setBeatState b).link = s.link := rfl
@[simp] theorem State.setBeatState_out (s : State) (b : BeatState) : (s.setBeatState b).out = s.out := rfl
@[simp] theorem State.setBeatState_idles (s : State) (b : BeatState) : (s.setBeatState b).idles = s.idles := rfl
@[simp] theorem State.setBeatState_pending (s : State) (b : BeatState) : (s.setBeatState b).pending = s.pending := rfl

@[simp] theorem State.giveUpFetch_power (s : State) (i : Nat) : (s.giveUpFetch i).power = s.power := rfl
@[simp] theorem State.giveUpFetch_pins (s : State) (i : Nat) : (s.giveUpFetch i).pins = s.pins := rfl
@[simp] theorem State.giveUpFetch_mode (s : State) (i : Nat) : (s.giveUpFetch i).mode = s.mode := rfl
@[simp] theorem State.giveUpFetch_entries (s : State) (i : Nat) : (s.giveUpFetch i).entries = s.entries := rfl
@[simp] theorem State.giveUpFetch_checker (s : State) (i : Nat) : (s.giveUpFetch i).checker = s.checker := rfl
@[simp] theorem State.giveUpFetch_host (s : State) (i : Nat) : (s.giveUpFetch i).host = s.host := rfl
@[simp] theorem State.giveUpFetch_time (s : State) (i : Nat) : (s.giveUpFetch i).time = s.time := rfl
@[simp] theorem State.giveUpFetch_queue (s : State) (i : Nat) : (s.giveUpFetch i).queue = s.queue := rfl
@[simp] theorem State.giveUpFetch_alerts (s : State) (i : Nat) : (s.giveUpFetch i).alerts = s.alerts := rfl
@[simp] theorem State.giveUpFetch_link (s : State) (i : Nat) : (s.giveUpFetch i).link = s.link := rfl
@[simp] theorem State.giveUpFetch_out (s : State) (i : Nat) : (s.giveUpFetch i).out = s.out := rfl
@[simp] theorem State.giveUpFetch_idles (s : State) (i : Nat) : (s.giveUpFetch i).idles = s.idles := rfl
@[simp] theorem State.giveUpFetch_pending (s : State) (i : Nat) : (s.giveUpFetch i).pending = s.pending := rfl

@[simp] theorem State.raiseOne_power (s : State) (ev : Event) : (s.raiseOne ev).power = s.power := rfl
@[simp] theorem State.raiseOne_pins (s : State) (ev : Event) : (s.raiseOne ev).pins = s.pins := rfl
@[simp] theorem State.raiseOne_mode (s : State) (ev : Event) : (s.raiseOne ev).mode = s.mode := rfl
@[simp] theorem State.raiseOne_entries (s : State) (ev : Event) : (s.raiseOne ev).entries = s.entries := rfl
@[simp] theorem State.raiseOne_checker (s : State) (ev : Event) : (s.raiseOne ev).checker = s.checker := rfl
@[simp] theorem State.raiseOne_host (s : State) (ev : Event) : (s.raiseOne ev).host = s.host := rfl
@[simp] theorem State.raiseOne_port (s : State) (ev : Event) : (s.raiseOne ev).port = s.port := rfl
@[simp] theorem State.raiseOne_time (s : State) (ev : Event) : (s.raiseOne ev).time = s.time := rfl
@[simp] theorem State.raiseOne_queue (s : State) (ev : Event) : (s.raiseOne ev).queue = (s.queue.takeEvent ev).1 := rfl
@[simp] theorem State.raiseOne_alerts (s : State) (ev : Event) : (s.raiseOne ev).alerts = s.alerts.take (s.queue.takeEvent ev).2 := rfl
@[simp] theorem State.raiseOne_link (s : State) (ev : Event) : (s.raiseOne ev).link = s.link := rfl
@[simp] theorem State.raiseOne_out (s : State) (ev : Event) : (s.raiseOne ev).out = s.out := rfl
@[simp] theorem State.raiseOne_idles (s : State) (ev : Event) : (s.raiseOne ev).idles = s.idles := rfl
@[simp] theorem State.raiseOne_pending (s : State) (ev : Event) : (s.raiseOne ev).pending = s.pending := rfl

@[simp] theorem State.acknowledge_power (s : State) (n : Seq) : (s.acknowledge n).power = s.power := rfl
@[simp] theorem State.acknowledge_pins (s : State) (n : Seq) : (s.acknowledge n).pins = s.pins := rfl
@[simp] theorem State.acknowledge_mode (s : State) (n : Seq) : (s.acknowledge n).mode = s.mode := rfl
@[simp] theorem State.acknowledge_entries (s : State) (n : Seq) : (s.acknowledge n).entries = s.entries := rfl
@[simp] theorem State.acknowledge_checker (s : State) (n : Seq) : (s.acknowledge n).checker = s.checker := rfl
@[simp] theorem State.acknowledge_host (s : State) (n : Seq) : (s.acknowledge n).host = s.host := rfl
@[simp] theorem State.acknowledge_port (s : State) (n : Seq) : (s.acknowledge n).port = s.port := rfl
@[simp] theorem State.acknowledge_time (s : State) (n : Seq) : (s.acknowledge n).time = s.time := rfl
@[simp] theorem State.acknowledge_link (s : State) (n : Seq) : (s.acknowledge n).link = s.link := rfl
@[simp] theorem State.acknowledge_out (s : State) (n : Seq) : (s.acknowledge n).out = s.out := rfl
@[simp] theorem State.acknowledge_idles (s : State) (n : Seq) : (s.acknowledge n).idles = s.idles := rfl
@[simp] theorem State.acknowledge_pending (s : State) (n : Seq) : (s.acknowledge n).pending = s.pending := rfl

@[simp] theorem State.countTick_power (s : State) : s.countTick.power = s.power := rfl
@[simp] theorem State.countTick_pins (s : State) : s.countTick.pins = s.pins := rfl
@[simp] theorem State.countTick_mode (s : State) : s.countTick.mode = s.mode := rfl
@[simp] theorem State.countTick_entries (s : State) : s.countTick.entries = s.entries := rfl
@[simp] theorem State.countTick_checker (s : State) : s.countTick.checker = s.checker := rfl
@[simp] theorem State.countTick_host (s : State) : s.countTick.host = s.host := rfl
@[simp] theorem State.countTick_port (s : State) : s.countTick.port = s.port := rfl
@[simp] theorem State.countTick_queue (s : State) : s.countTick.queue = s.queue := rfl
@[simp] theorem State.countTick_alerts (s : State) : s.countTick.alerts = s.alerts := rfl
@[simp] theorem State.countTick_link (s : State) : s.countTick.link = s.link := rfl
@[simp] theorem State.countTick_out (s : State) : s.countTick.out = s.out := rfl
@[simp] theorem State.countTick_idles (s : State) : s.countTick.idles = s.idles := rfl
@[simp] theorem State.countTick_pending (s : State) : s.countTick.pending = s.pending := rfl

@[simp] theorem State.alertTick_power (s : State) : s.alertTick.power = s.power := rfl
@[simp] theorem State.alertTick_pins (s : State) : s.alertTick.pins = s.pins := rfl
@[simp] theorem State.alertTick_mode (s : State) : s.alertTick.mode = s.mode := rfl
@[simp] theorem State.alertTick_entries (s : State) : s.alertTick.entries = s.entries := rfl
@[simp] theorem State.alertTick_checker (s : State) : s.alertTick.checker = s.checker := rfl
@[simp] theorem State.alertTick_host (s : State) : s.alertTick.host = s.host := rfl
@[simp] theorem State.alertTick_port (s : State) : s.alertTick.port = s.port := rfl
@[simp] theorem State.alertTick_time (s : State) : s.alertTick.time = s.time := rfl
@[simp] theorem State.alertTick_queue (s : State) : s.alertTick.queue = s.queue := rfl
@[simp] theorem State.alertTick_alerts (s : State) : s.alertTick.alerts = s.alerts.ticked := rfl
@[simp] theorem State.alertTick_link (s : State) : s.alertTick.link = s.link := rfl
@[simp] theorem State.alertTick_out (s : State) : s.alertTick.out = s.out := rfl
@[simp] theorem State.alertTick_idles (s : State) : s.alertTick.idles = s.idles := rfl
@[simp] theorem State.alertTick_pending (s : State) : s.alertTick.pending = s.pending := rfl

@[simp] theorem State.respond_power (s : State) (c : Byte) (p : List Byte) (r : Reply) : (s.respond c p r).power = s.power := rfl
@[simp] theorem State.respond_pins (s : State) (c : Byte) (p : List Byte) (r : Reply) : (s.respond c p r).pins = s.pinsAfter 0 := rfl
@[simp] theorem State.respond_mode (s : State) (c : Byte) (p : List Byte) (r : Reply) : (s.respond c p r).mode = s.mode := rfl
@[simp] theorem State.respond_entries (s : State) (c : Byte) (p : List Byte) (r : Reply) : (s.respond c p r).entries = s.entries := rfl
@[simp] theorem State.respond_checker (s : State) (c : Byte) (p : List Byte) (r : Reply) : (s.respond c p r).checker = s.checker := rfl
@[simp] theorem State.respond_host (s : State) (c : Byte) (p : List Byte) (r : Reply) : (s.respond c p r).host = s.host := rfl
@[simp] theorem State.respond_port (s : State) (c : Byte) (p : List Byte) (r : Reply) : (s.respond c p r).port = s.port := rfl
@[simp] theorem State.respond_time (s : State) (c : Byte) (p : List Byte) (r : Reply) : (s.respond c p r).time = s.time := rfl
@[simp] theorem State.respond_queue (s : State) (c : Byte) (p : List Byte) (r : Reply) : (s.respond c p r).queue = s.queue := rfl
@[simp] theorem State.respond_alerts (s : State) (c : Byte) (p : List Byte) (r : Reply) : (s.respond c p r).alerts = s.alerts := rfl
@[simp] theorem State.respond_link (s : State) (c : Byte) (p : List Byte) (r : Reply) : (s.respond c p r).link = s.link.checked c p r := rfl
@[simp] theorem State.respond_out (s : State) (c : Byte) (p : List Byte) (r : Reply) : (s.respond c p r).out = { s.out with sdo := some 0 } := rfl
@[simp] theorem State.respond_idles (s : State) (c : Byte) (p : List Byte) (r : Reply) : (s.respond c p r).idles = s.idles := rfl
@[simp] theorem State.respond_pending (s : State) (c : Byte) (p : List Byte) (r : Reply) : (s.respond c p r).pending = s.pending := rfl

@[simp] theorem State.byteDone_power (s : State) (l : Link) (b : Byte) : (s.byteDone l b).power = s.power := rfl
@[simp] theorem State.byteDone_pins (s : State) (l : Link) (b : Byte) : (s.byteDone l b).pins = s.pinsAfter b := rfl
@[simp] theorem State.byteDone_mode (s : State) (l : Link) (b : Byte) : (s.byteDone l b).mode = s.mode := rfl
@[simp] theorem State.byteDone_entries (s : State) (l : Link) (b : Byte) : (s.byteDone l b).entries = s.entries := rfl
@[simp] theorem State.byteDone_checker (s : State) (l : Link) (b : Byte) : (s.byteDone l b).checker = s.checker := rfl
@[simp] theorem State.byteDone_host (s : State) (l : Link) (b : Byte) : (s.byteDone l b).host = s.host := rfl
@[simp] theorem State.byteDone_port (s : State) (l : Link) (b : Byte) : (s.byteDone l b).port = s.port := rfl
@[simp] theorem State.byteDone_time (s : State) (l : Link) (b : Byte) : (s.byteDone l b).time = s.time := rfl
@[simp] theorem State.byteDone_queue (s : State) (l : Link) (b : Byte) : (s.byteDone l b).queue = s.queue := rfl
@[simp] theorem State.byteDone_alerts (s : State) (l : Link) (b : Byte) : (s.byteDone l b).alerts = s.alerts := rfl
@[simp] theorem State.byteDone_link (s : State) (l : Link) (b : Byte) : (s.byteDone l b).link = l := rfl
@[simp] theorem State.byteDone_out (s : State) (l : Link) (b : Byte) : (s.byteDone l b).out = { s.out with sdo := some b } := rfl
@[simp] theorem State.byteDone_idles (s : State) (l : Link) (b : Byte) : (s.byteDone l b).idles = s.idles := rfl
@[simp] theorem State.byteDone_pending (s : State) (l : Link) (b : Byte) : (s.byteDone l b).pending = s.pending := rfl

@[simp] theorem State.takeSrstnRise_power (s : State) : s.takeSrstnRise.power = s.power := rfl
@[simp] theorem State.takeSrstnRise_mode (s : State) : s.takeSrstnRise.mode = s.mode := rfl
@[simp] theorem State.takeSrstnRise_entries (s : State) : s.takeSrstnRise.entries = s.entries := rfl
@[simp] theorem State.takeSrstnRise_checker (s : State) : s.takeSrstnRise.checker = s.checker := rfl
@[simp] theorem State.takeSrstnRise_host (s : State) : s.takeSrstnRise.host = s.host := rfl
@[simp] theorem State.takeSrstnRise_port (s : State) : s.takeSrstnRise.port = s.port := rfl
@[simp] theorem State.takeSrstnRise_time (s : State) : s.takeSrstnRise.time = s.time := rfl
@[simp] theorem State.takeSrstnRise_queue (s : State) : s.takeSrstnRise.queue = s.queue := rfl
@[simp] theorem State.takeSrstnRise_alerts (s : State) : s.takeSrstnRise.alerts = s.alerts := rfl
@[simp] theorem State.takeSrstnRise_link (s : State) : s.takeSrstnRise.link = s.link := rfl
@[simp] theorem State.takeSrstnRise_out (s : State) : s.takeSrstnRise.out = s.out := rfl
@[simp] theorem State.takeSrstnRise_idles (s : State) : s.takeSrstnRise.idles = s.idles := rfl
@[simp] theorem State.takeSrstnRise_pending (s : State) : s.takeSrstnRise.pending = s.pending := rfl

@[simp] theorem State.takeHrstnRise_power (s : State) : s.takeHrstnRise.power = s.power := rfl
@[simp] theorem State.takeHrstnRise_mode (s : State) : s.takeHrstnRise.mode = s.mode := rfl
@[simp] theorem State.takeHrstnRise_entries (s : State) : s.takeHrstnRise.entries = s.entries := rfl
@[simp] theorem State.takeHrstnRise_checker (s : State) : s.takeHrstnRise.checker = s.checker := rfl
@[simp] theorem State.takeHrstnRise_host (s : State) : s.takeHrstnRise.host = s.host := rfl
@[simp] theorem State.takeHrstnRise_port (s : State) : s.takeHrstnRise.port = s.port := rfl
@[simp] theorem State.takeHrstnRise_time (s : State) : s.takeHrstnRise.time = s.time := rfl
@[simp] theorem State.takeHrstnRise_queue (s : State) : s.takeHrstnRise.queue = s.queue := rfl
@[simp] theorem State.takeHrstnRise_alerts (s : State) : s.takeHrstnRise.alerts = s.alerts := rfl
@[simp] theorem State.takeHrstnRise_link (s : State) : s.takeHrstnRise.link = s.link := rfl
@[simp] theorem State.takeHrstnRise_out (s : State) : s.takeHrstnRise.out = s.out := rfl
@[simp] theorem State.takeHrstnRise_idles (s : State) : s.takeHrstnRise.idles = s.idles := rfl
@[simp] theorem State.takeHrstnRise_pending (s : State) : s.takeHrstnRise.pending = s.pending := rfl

end Sys2Proof.Machine
end

