-- ==== Sys2Proof/Laws/Table.lean ====
section
/-! SUPPORT. The walk over the table, and what the entry functions leave of an entry. -/

namespace Sys2Proof.Machine

/-! ## mapFrom, collectFrom, indexesOf, entryAt -/

@[simp] theorem mapFrom_length (f : Nat → Entry → Entry) (i : Nat) (es : List Entry) :
    (mapFrom f i es).length = es.length := by
  induction es generalizing i with
  | nil => rfl
  | cons e es ih => simp [mapFrom, ih]

theorem mapFrom_getElem? (f : Nat → Entry → Entry) (i k : Nat) (es : List Entry) :
    (mapFrom f i es)[k]? = es[k]?.map (f (i + k)) := by
  induction es generalizing i k with
  | nil => simp [mapFrom]
  | cons e es ih =>
    cases k with
    | zero => simp [mapFrom]
    | succ k => simp [mapFrom, ih]; congr 2; omega

/-- An entry of the changed table is the change of the entry, within the table. -/
theorem entryAt_mapFrom (f : Nat → Entry → Entry) (es : List Entry) (k : Nat) (h : k < es.length) :
    entryAt (mapFrom f 0 es) k = f k (entryAt es k) := by
  simp [entryAt, List.getD, mapFrom_getElem?, List.getElem?_eq_getElem h]

/-- A change that keeps EMPTY entries EMPTY reaches every index alike. -/
theorem entryAt_mapFrom_of_empty (f : Nat → Entry → Entry) (es : List Entry) (k : Nat)
    (hf : f k Entry.empty = Entry.empty) : entryAt (mapFrom f 0 es) k = f k (entryAt es k) := by
  by_cases h : k < es.length
  · exact entryAt_mapFrom f es k h
  · simp [entryAt, List.getD, mapFrom_getElem?, List.getElem?_eq_none (Nat.le_of_not_lt h), hf]

theorem mem_mapFrom {f : Nat → Entry → Entry} {i : Nat} {es : List Entry} {x : Entry} (h : x ∈ mapFrom f i es) :
    ∃ k e, e ∈ es ∧ x = f k e := by
  induction es generalizing i with
  | nil => simp [mapFrom] at h
  | cons e es ih =>
    simp only [mapFrom, List.mem_cons] at h
    rcases h with rfl | h
    · exact ⟨i, e, by simp, rfl⟩
    · obtain ⟨k, e', he, rfl⟩ := ih h
      exact ⟨k, e', by simp [he], rfl⟩

/-- A predicate that the change keeps holds of the whole changed table. -/
theorem forall_mapFrom {p : Entry → Prop} {f : Nat → Entry → Entry} {i : Nat} {es : List Entry}
    (h : ∀ e ∈ es, p e) (hf : ∀ k e, p e → p (f k e)) : ∀ e ∈ mapFrom f i es, p e := by
  intro x hx
  obtain ⟨k, e, he, rfl⟩ := mem_mapFrom hx
  exact hf k e (h e he)

theorem mapFrom_congr {f g : Nat → Entry → Entry} {i : Nat} {es : List Entry}
    (h : ∀ k, ∀ e ∈ es, f k e = g k e) : mapFrom f i es = mapFrom g i es := by
  induction es generalizing i with
  | nil => rfl
  | cons e es ih =>
    simp only [mapFrom, h i e (by simp)]
    rw [ih fun k e he => h k e (by simp [he])]

theorem mapFrom_id {f : Nat → Entry → Entry} {i : Nat} {es : List Entry} (h : ∀ k, ∀ e ∈ es, f k e = e) :
    mapFrom f i es = es := by
  induction es generalizing i with
  | nil => rfl
  | cons e es ih =>
    simp only [mapFrom, h i e (by simp)]
    rw [ih fun k e he => h k e (by simp [he])]

theorem collectFrom_eq_nil {α : Type} {f : Nat → Entry → List α} {i : Nat} {es : List Entry}
    (h : ∀ k, ∀ e ∈ es, f k e = []) : collectFrom f i es = [] := by
  induction es generalizing i with
  | nil => rfl
  | cons e es ih =>
    simp only [collectFrom, h i e (by simp), List.nil_append]
    exact ih fun k e he => h k e (by simp [he])

theorem mem_collectFrom {α : Type} {f : Nat → Entry → List α} {i : Nat} {es : List Entry} {x : α} :
    x ∈ collectFrom f i es ↔ ∃ k, ∃ h : k < es.length, x ∈ f (i + k) es[k] := by
  induction es generalizing i with
  | nil => simp [collectFrom]
  | cons e es ih =>
    simp only [collectFrom, List.mem_append, ih]
    constructor
    · rintro (h | ⟨k, hk, h⟩)
      · exact ⟨0, by simp, by simpa using h⟩
      · exact ⟨k + 1, by simpa using hk, by simpa [Nat.add_assoc, Nat.add_comm 1 k] using h⟩
    · rintro ⟨k, hk, h⟩
      cases k with
      | zero => exact .inl (by simpa using h)
      | succ k =>
        exact .inr ⟨k, by simpa using hk, by simpa [Nat.add_assoc, Nat.add_comm 1 k] using h⟩

theorem entryAt_eq_getElem {es : List Entry} {k : Nat} (h : k < es.length) : entryAt es k = es[k] := by
  simp [entryAt, List.getD, List.getElem?_eq_getElem h]

theorem entryAt_eq_empty {es : List Entry} {k : Nat} (h : es.length ≤ k) : entryAt es k = Entry.empty := by
  simp [entryAt, List.getD, List.getElem?_eq_none h]

/-- An index is listed exactly when its entry passes the test. -/
theorem mem_indexesOf {p : Entry → Bool} {es : List Entry} {i : Nat} :
    i ∈ indexesOf p es ↔ i < es.length ∧ p (entryAt es i) = true := by
  simp only [indexesOf, mem_collectFrom, Nat.zero_add]
  constructor
  · rintro ⟨k, hk, h⟩
    by_cases hp : p es[k] = true
    · simp only [hp, if_true, List.mem_singleton] at h
      subst h
      exact ⟨hk, by rw [entryAt_eq_getElem hk]; exact hp⟩
    · simp [hp] at h
  · rintro ⟨hi, hp⟩
    rw [entryAt_eq_getElem hi] at hp
    exact ⟨i, hi, by simp [hp]⟩

theorem indexesFrom_sorted (p : Entry → Bool) (i : Nat) (es : List Entry) :
    (collectFrom (fun k e => if p e then [k] else []) i es).Pairwise (· < ·) ∧
      ∀ k ∈ collectFrom (fun k e => if p e then [k] else []) i es, i ≤ k := by
  induction es generalizing i with
  | nil => simp [collectFrom]
  | cons e es ih =>
    obtain ⟨h1, h2⟩ := ih (i + 1)
    by_cases hp : p e = true
    · simp only [collectFrom, hp, if_true, List.singleton_append, List.pairwise_cons, List.mem_cons]
      refine ⟨⟨fun k hk => h2 k hk, h1⟩, ?_⟩
      rintro k (rfl | hk)
      · exact Nat.le_refl _
      · exact Nat.le_of_succ_le (h2 k hk)
    · simp only [collectFrom, hp]
      exact ⟨h1, fun k hk => Nat.le_of_succ_le (h2 k hk)⟩

/-- Listed indexes ascend, so none is listed twice. -/
theorem indexesOf_sorted (p : Entry → Bool) (es : List Entry) : (indexesOf p es).Pairwise (· < ·) :=
  (indexesFrom_sorted p 0 es).1

theorem indexesOf_nodup (p : Entry → Bool) (es : List Entry) : (indexesOf p es).Nodup :=
  (indexesOf_sorted p es).imp Nat.ne_of_lt

/-- No index is listed when no entry passes. -/
theorem indexesOf_eq_nil {p : Entry → Bool} {es : List Entry} (h : ∀ e ∈ es, p e = false) : indexesOf p es = [] :=
  collectFrom_eq_nil fun k e he => by simp [h e he]

@[simp] theorem entryAt_set (es : List Entry) (i k : Nat) (e : Entry) :
    entryAt (es.set i e) k = if i = k ∧ k < es.length then e else entryAt es k := by
  simp only [entryAt, List.getD, List.getElem?_set]
  by_cases h : i = k
  · subst h
    by_cases hl : i < es.length
    · simp [hl]
    · simp [hl]
  · simp [h]

theorem entryAt_mem_or_empty (es : List Entry) (i : Nat) : entryAt es i ∈ es ∨ entryAt es i = Entry.empty := by
  by_cases h : i < es.length
  · exact .inl (by rw [entryAt_eq_getElem h]; exact List.getElem_mem h)
  · exact .inr (entryAt_eq_empty (Nat.le_of_not_lt h))

/-! ## What the entry functions leave -/

@[simp] theorem Entry.restarted_state (e : Entry) (st : EntryState) : (e.restarted st).state = st := rfl
@[simp] theorem Entry.restarted_desc (e : Entry) (st : EntryState) : (e.restarted st).desc = e.desc := rfl
@[simp] theorem Entry.followed_state (e : Entry) : e.followed.state = .armed := rfl
@[simp] theorem Entry.followed_desc (e : Entry) : e.followed.desc = e.desc := rfl
@[simp] theorem Entry.followed_spared (e : Entry) : e.followed.rt.spared = true := rfl
@[simp] theorem Verdict.none_entry (e : Entry) : (Verdict.none e).entry = e := rfl
@[simp] theorem Verdict.none_trip (e : Entry) : (Verdict.none e).trip = Option.none := rfl
@[simp] theorem Verdict.none_action (e : Entry) : (Verdict.none e).action = Option.none := rfl

/-- A verdict moves counts and nothing else: state, descriptor and shadow stay. -/
theorem Entry.judge_keeps (e : Entry) (addr : Addr) (op : BeatOp) :
    (e.judge addr op).entry.state = e.state ∧ (e.judge addr op).entry.desc = e.desc ∧
      (e.judge addr op).entry.rt.shadow = e.rt.shadow := by
  unfold Entry.judge judgeCondition judgeCount judgeTotal judgeRate
  repeat' split
  all_goals simp

/-- A completion moves an entry at most from LAPSED or ARMED to ARMED and keeps its descriptor. -/
theorem Entry.completed_keeps (e : Entry) (mode : PartMode) (addr : Addr) (op : BeatOp) (data : Word) :
    (e.completed mode addr op data).desc = e.desc ∧
      ((e.completed mode addr op data).state = e.state ∨ (e.completed mode addr op data).state = .armed) := by
  unfold Entry.completed
  repeat' split
  all_goals simp

/-- The tick after a completion never lapses the entry that the completion restarted (R22, R49). -/
theorem Entry.followed_not_lapsing (e : Entry) : e.followed.lapsesAtTick = false := by
  simp [Entry.lapsesAtTick]

/-- A tick keeps an entry's descriptor and shadow, and moves it at most from ARMED to LAPSED. -/
theorem Entry.ticked_keeps (e : Entry) (now : TickCount) :
    (e.ticked now).desc = e.desc ∧ (e.ticked now).rt.shadow = e.rt.shadow ∧
      ((e.ticked now).state = e.state ∨ e.state = .armed ∧ (e.ticked now).state = .lapsed) := by
  unfold Entry.ticked
  repeat' split
  all_goals simp_all

/-- Coverage asks only for the state and the descriptor. -/
theorem Entry.covers_congr {e f : Entry} (hs : e.state = f.state) (hd : e.desc = f.desc) (addr : Addr) (dir : Direction) :
    e.covers addr dir = f.covers addr dir := by
  simp [Entry.covers, hs, hd]

end Sys2Proof.Machine
end

