-- ==== Sys2Proof/Laws/Ops.lean ====
section
/-! SUPPORT. The shared operations: which fields each one reaches, what it keeps of the table, and how it answers. A frame
lemma says that the result differs from the state in the named fields alone. -/

namespace Sys2Proof.Machine

/-! ## Answers and the decision of a beat -/

theorem State.giveAnswer_frame (s : State) :
    s.giveAnswer = { s with host := s.giveAnswer.host, out := s.giveAnswer.out } := by
  unfold State.giveAnswer
  split
  · rfl
  · split <;> rfl

/-- Where no answer is held none is given. -/
theorem State.giveAnswer_of_none {s : State} (h : s.heldAnswer = none) : s.giveAnswer = s := by
  unfold State.giveAnswer
  split
  · rfl
  · rename_i t ht
    have hn : t.held = none := by simpa [State.heldAnswer, ht] using h
    simp [hn]

/-- While HRSTN is low or initialisation lasts none is given (R83, R90, R92). -/
theorem State.giveAnswer_of_closed {s : State} (h : s.hostPortOpen = false) : s.giveAnswer = s := by
  unfold State.giveAnswer; split <;> simp [h]

/-- An answer that is held is given to its beat. -/
theorem State.giveAnswer_eq {s : State} {t : Transaction} {a : HostAnswer} (ht : s.host = some t) (ha : t.held = some a)
    (h : s.hostPortOpen = true) :
    s.giveAnswer = { s with host := t.afterAnswer, out := { s.out with answer := some a } } := by
  simp [State.giveAnswer, ht, ha, h]

/-- Everything that giving an answer does while the host port is open, in the words of the claims. -/
theorem State.giveAnswer_open {s : State} (h : s.hostPortOpen = true) :
    s.giveAnswer = { s with
      host := s.hostAnswered
      out := if s.heldAnswer.isSome then { s.out with answer := s.heldAnswer } else s.out } := by
  unfold State.giveAnswer State.hostAnswered State.heldAnswer Transaction.afterAnswer Transaction.courseAfterAnswer
  cases hh : s.host with
  | none => simp [← hh]
  | some x =>
    cases ha : x.held with
    | none => simp [ha]; rw [← hh]
    | some a => simp [ha, h]

/-- Everything that the edge of BCLK of a command does, in the words of the claims. -/
theorem State.atBclk_eq (s : State) : s.atBclk = s.answered := by
  unfold State.atBclk State.answered
  cases h : s.hostPortOpen with
  | false => exact State.giveAnswer_of_closed (s := s.quiet) h
  | true =>
    rw [State.giveAnswer_open (s := s.quiet) h]
    unfold State.quiet State.heldAnswer State.hostAnswered
    cases hh : s.host with
    | none => simp [Outputs.none]
    | some x => cases ha : x.held <;> simp [ha, Outputs.none]

/-- An answer reaches the transaction and the outputs alone. -/
theorem State.answered_frame (s : State) : s.answered = { s with host := s.answered.host, out := s.answered.out } := by
  unfold State.answered; split <;> rfl

/-- Where no answer is held, the edge of a command clears the outputs alone. -/
theorem State.answered_of_none {s : State} (h : s.heldAnswer = none) : s.answered = s.quiet := by
  rw [← State.atBclk_eq, State.atBclk, State.giveAnswer_of_none (by simpa [State.heldAnswer] using h)]

/-- The host port takes beats exactly when it is open. -/
theorem State.takesBeats_iff (s : State) : s.takesBeats ↔ s.hostPortOpen = true := by
  simp [State.takesBeats, State.hostPortOpen]

theorem State.promote_frame (s : State) :
    s.promote = { s with port := { s.port with list := s.promote.port.list } } := by
  unfold State.promote; split <;> rfl

theorem State.dispose_frame (s : State) (d : Disposition) : s.dispose d = { s with host := (s.dispose d).host } := by
  cases d <;> rfl

/-- The current beat is DECIDED; the answer of a DROPPED or REJECTED one is held. -/
theorem State.dispose_eq {s : State} {t : Transaction} {b : Beat} (d : Disposition) (ht : s.host = some t)
    (hb : t.current = some b) (hh : t.held = none) :
    s.dispose d = { s with
      host := some { t with current := some { b with state := .decided d }, held := d.ownAnswer } } := by
  cases d <;> simp [State.dispose, Disposition.ownAnswer, State.setBeatState, State.hold, ht, hb, hh]

theorem State.decideBeat_frame (s : State) (addr : Addr) (op : BeatOp) :
    s.decideBeat addr op =
      { s with checker := none, entries := judged s.entries addr op, host := (s.decideBeat addr op).host
               queue := (s.decideBeat addr op).queue, alerts := (s.decideBeat addr op).alerts } := by
  unfold State.decideBeat
  rw [State.dispose_frame, State.raise_frame]

theorem State.examineBeat_frame (s : State) (b : Beat) :
    s.examineBeat b =
      { s with entries := (s.examineBeat b).entries, checker := (s.examineBeat b).checker
               host := (s.examineBeat b).host, port := (s.examineBeat b).port, queue := (s.examineBeat b).queue
               alerts := (s.examineBeat b).alerts } := by
  unfold State.examineBeat
  split
  · rw [State.dispose_frame]
  · dsimp only
    split
    · rw [State.decideBeat_frame]
    · rw [State.promote_frame]; rfl

theorem State.examine_frame (s : State) :
    s.examine =
      { s with entries := s.examine.entries, checker := s.examine.checker, host := s.examine.host
               port := s.examine.port, queue := s.examine.queue, alerts := s.examine.alerts } := by
  unfold State.examine
  split
  · rfl
  · exact s.examineBeat_frame _

/-- With no beat before it, the checker does nothing. -/
theorem State.examine_of_none {s : State} (h : s.beatAtChecker = none) : s.examine = s := by
  simp [State.examine, h]

/-- A beat before the checker in SUSPENDED passes unchecked (R35, R53). -/
theorem State.examineBeat_suspended {s : State} (b : Beat) (h : s.mode = .suspended) :
    s.examineBeat b = State.dispose { s with checker := none } .passed := by
  simp [State.examineBeat, h]

/-- A beat with blocking entries is held (R32). -/
theorem State.examineBeat_blocked {s : State} {b : Beat} (hm : s.mode = .monitoring)
    (hb : blockingOf s.entries b.addr b.op.dir ≠ []) :
    s.examineBeat b =
      State.promote { (s.setBeatState .held) with
        checker := some ⟨coveringOf s.entries b.addr b.op.dir, blockingOf s.entries b.addr b.op.dir⟩ } := by
  simp [State.examineBeat, hm, hb]

/-- A beat without blocking entries is decided (R31, R34). -/
theorem State.examineBeat_unblocked {s : State} {b : Beat} (hm : s.mode = .monitoring)
    (hb : blockingOf s.entries b.addr b.op.dir = []) : s.examineBeat b = s.decideBeat b.addr b.op := by
  simp [State.examineBeat, hm, hb]

/-! ## The table under these operations -/

/-- The descriptors of a table, which no traffic changes. -/
def descs (es : List Entry) : List (Option Descriptor) := es.map Entry.desc

theorem mapFrom_descs {f : Nat → Entry → Entry} (h : ∀ k e, (f k e).desc = e.desc) (i : Nat) (es : List Entry) :
    descs (mapFrom f i es) = descs es := by
  induction es generalizing i with
  | nil => rfl
  | cons e es ih => simp only [descs, mapFrom, List.map_cons, h] at *; rw [ih]

@[simp] theorem judged_descs (es : List Entry) (addr : Addr) (op : BeatOp) : descs (judged es addr op) = descs es :=
  mapFrom_descs (fun _ e => (e.judge_keeps addr op).2.1) 0 es

@[simp] theorem judged_length (es : List Entry) (addr : Addr) (op : BeatOp) : (judged es addr op).length = es.length :=
  mapFrom_length _ 0 es

/-- Replacing an entry by one with its descriptor keeps every descriptor. -/
theorem set_descs {es : List Entry} {i : Nat} {e : Entry} (h : e.desc = (entryAt es i).desc) :
    descs (es.set i e) = descs es := by
  apply List.ext_getElem?
  intro k
  simp only [descs, List.getElem?_map, List.getElem?_set]
  by_cases hk : i = k
  · subst hk
    by_cases hl : i < es.length
    · simp [hl, h, entryAt_eq_getElem hl]
    · simp [hl]
  · simp [hk]

@[simp] theorem State.placeRequest_descs (s : State) (i : Nat) : descs (s.placeRequest i).entries = descs s.entries :=
  set_descs rfl

theorem State.placeRequests_frame (is : List Nat) (s : State) :
    is.foldl State.placeRequest s =
      { s with entries := (is.foldl State.placeRequest s).entries
               port := { s.port with list := (is.foldl State.placeRequest s).port.list } } := by
  induction is generalizing s with
  | nil => rfl
  | cons i is ih => simp only [List.foldl_cons]; rw [ih]; rfl

@[simp] theorem State.placeRequests_descs (is : List Nat) (s : State) :
    descs (is.foldl State.placeRequest s).entries = descs s.entries := by
  induction is generalizing s with
  | nil => rfl
  | cons i is ih => simp only [List.foldl_cons]; rw [ih, State.placeRequest_descs]

/-- Each request placed is one more in the list. -/
@[simp] theorem State.placeRequests_length (is : List Nat) (s : State) :
    (is.foldl State.placeRequest s).port.list.length = s.port.list.length + is.length := by
  induction is generalizing s with
  | nil => rfl
  | cons i is ih => simp only [List.foldl_cons]; rw [ih]; simp [State.placeRequest]; omega

theorem State.fill_frame (s : State) :
    s.fill = { s with entries := s.fill.entries, port := { s.port with list := s.fill.port.list } } := by
  unfold State.fill
  split
  · rw [State.promote_frame, State.placeRequests_frame]
  · rfl

theorem State.examineBeat_descs (s : State) (b : Beat) : descs (s.examineBeat b).entries = descs s.entries := by
  unfold State.examineBeat
  split
  · rw [State.dispose_frame]
  · dsimp only
    split
    · rw [State.decideBeat_frame]; simp
    · rw [State.promote_frame]; rfl

@[simp] theorem State.examine_descs (s : State) : descs s.examine.entries = descs s.entries := by
  unfold State.examine
  split
  · rfl
  · exact s.examineBeat_descs _

@[simp] theorem State.fill_descs (s : State) : descs s.fill.entries = descs s.entries := by
  unfold State.fill
  split
  · rw [State.promote_frame]; simp
  · rfl

/-! ## Promotion -/

/-- Grouping by the members of a list without repetition, and then the rest, loses nothing. -/
theorem grouped_perm (is : List Nat) (h : is.Nodup) (rs : List FetchRequest) :
    (is.flatMap (fun i => rs.filter fun r => decide (r.entry = i)) ++ rs.filter fun r => !is.contains r.entry).Perm rs := by
  induction is with
  | nil => simp
  | cons i is ih =>
    obtain ⟨hi, hn⟩ := List.nodup_cons.mp h
    have hsplit : (rs.filter fun r => !is.contains r.entry).Perm
        ((rs.filter fun r => decide (r.entry = i)) ++ rs.filter fun r => !(i :: is).contains r.entry) := by
      have hp := List.filter_append_perm (fun r : FetchRequest => decide (r.entry = i)) (rs.filter fun r => !is.contains r.entry)
      rw [List.filter_filter, List.filter_filter] at hp
      refine hp.symm.trans (List.Perm.of_eq ?_)
      congr 1
      · apply List.filter_congr
        intro r _
        by_cases hr : r.entry = i
        · simp [hr, hi]
        · simp [hr]
      · apply List.filter_congr
        intro r _
        simp [Bool.not_or]
    simp only [List.flatMap_cons, List.append_assoc]
    refine List.Perm.trans ?_ (ih hn)
    refine List.Perm.trans ?_ (List.Perm.append_left _ hsplit.symm)
    rw [← List.append_assoc, ← List.append_assoc]
    exact List.Perm.append_right _ List.perm_append_comm

/-- A promotion reorders the list and loses nothing (R60). -/
theorem promoted_perm (blocking : List Nat) (h : blocking.Nodup) (list : List FetchRequest) :
    (promoted blocking list).Perm list := by
  unfold promoted
  dsimp only
  rw [List.append_assoc]
  refine List.Perm.trans (List.Perm.append_left _ (grouped_perm blocking h _)) ?_
  have hq : (fun r : FetchRequest => decide (r.status = .queued)) = fun r => !decide (r.status = .issued) := by
    funext r; cases r.status <;> rfl
  rw [hq]
  exact List.filter_append_perm _ list

/-! ## The arbiter -/

theorem State.issueHead_frame (s : State) (k : GrantKind) : s.issueHead k = { s with port := (s.issueHead k).port } := by
  unfold State.issueHead; split <;> rfl

theorem State.issueBeat_frame (s : State) :
    s.issueBeat = { s with host := s.issueBeat.host, port := s.issueBeat.port } := by
  unfold State.issueBeat; split <;> rfl

theorem State.grant_frame (s : State) : s.grant = { s with host := s.grant.host, port := s.grant.port } := by
  unfold State.grant
  split
  · rfl
  · split
    · rfl
    · rw [State.issueHead_frame]
    · exact s.issueBeat_frame
    · rw [State.issueHead_frame]

/-- No grant while an access is on the bus (R55). -/
theorem State.grant_of_busy {s : State} {a : Access} (h : s.port.bus = some a) : s.grant = s := by
  simp [State.grant, h]

/-- After a grant the bus is free only when nothing was there to grant. -/
theorem State.grant_of_none {s : State} (h : s.choice = none) : s.grant = s := by
  unfold State.grant; split
  · rfl
  · simp [h]

/-! ## Settling -/

/-- Everything that settling can reach. -/
theorem State.settle_frame (s : State) :
    s.settle =
      { s with entries := s.settle.entries, checker := s.settle.checker, host := s.settle.host, port := s.settle.port
               queue := s.settle.queue, alerts := s.settle.alerts } := by
  unfold State.settle
  rw [State.grant_frame, State.fill_frame, State.examine_frame]

@[simp] theorem State.settle_power (s : State) : s.settle.power = s.power := by rw [s.settle_frame]
@[simp] theorem State.settle_pins (s : State) : s.settle.pins = s.pins := by rw [s.settle_frame]
@[simp] theorem State.settle_mode (s : State) : s.settle.mode = s.mode := by rw [s.settle_frame]
@[simp] theorem State.settle_time (s : State) : s.settle.time = s.time := by rw [s.settle_frame]
@[simp] theorem State.settle_link (s : State) : s.settle.link = s.link := by rw [s.settle_frame]
@[simp] theorem State.settle_out (s : State) : s.settle.out = s.out := by rw [s.settle_frame]
@[simp] theorem State.settle_idles (s : State) : s.settle.idles = s.idles := by rw [s.settle_frame]
@[simp] theorem State.settle_pending (s : State) : s.settle.pending = s.pending := by rw [s.settle_frame]

/-- Settling changes no descriptor. -/
@[simp] theorem State.settle_descs (s : State) : descs s.settle.entries = descs s.entries := by
  have h : s.settle.entries = s.examine.fill.entries := by unfold State.settle; rw [State.grant_frame]
  rw [h]; simp

@[simp] theorem State.settle_length (s : State) : s.settle.entries.length = s.entries.length := by
  have h := congrArg List.length s.settle_descs
  simpa [descs] using h

theorem State.promote_of_none {s : State} (h : s.checker = none) : s.promote = s := by
  simp [State.promote, h]

/-- With no entry PENDING no place is taken. -/
theorem State.pendingInOrder_eq_nil {s : State} (h : ∀ e ∈ s.entries, e.state ≠ .pending) : s.pendingInOrder = [] := by
  have hn : indexesOf (fun e => decide (e.state = .pending)) s.entries = [] :=
    indexesOf_eq_nil fun e he => by simp [h e he]
  simp [State.pendingInOrder, hn]

/-- Where no place can be taken, filling only keeps the promoted group in front (R14, R61). -/
theorem State.fill_of_no_place {s : State}
    (h : listCapacity ≤ s.port.list.length ∨ ∀ e ∈ s.entries, e.state ≠ .pending) :
    s.fill = if s.mode = .monitoring then s.promote else s := by
  have hn : s.pendingInOrder.take (listCapacity - s.port.list.length) = [] := by
    rcases h with h | h
    · simp [Nat.sub_eq_zero_of_le h]
    · simp [State.pendingInOrder_eq_nil h]
  simp [State.fill, hn]

/-- With no beat before the checker, no decision in progress, no place to take and the bus busy, settling does nothing. -/
theorem State.settle_of_calm {s : State} {a : Access} (hb : s.beatAtChecker = none) (hc : s.checker = none)
    (hp : listCapacity ≤ s.port.list.length ∨ ∀ e ∈ s.entries, e.state ≠ .pending) (ha : s.port.bus = some a) :
    s.settle = s := by
  have hf : s.fill = s := by rw [State.fill_of_no_place hp, State.promote_of_none hc]; simp
  rw [State.settle, State.examine_of_none hb, hf, State.grant_of_busy ha]

/-! ## The end of an access -/

theorem State.beginFetch_frame (s : State) (i : Nat) :
    s.beginFetch i = { s with entries := (s.beginFetch i).entries, port := { s.port with list := (s.beginFetch i).port.list } } := by
  unfold State.beginFetch
  dsimp only
  split <;> rfl

theorem State.beginFetch_descs (s : State) (i : Nat) : descs (s.beginFetch i).entries = descs s.entries := by
  unfold State.beginFetch
  dsimp only
  split
  · rw [State.placeRequest_descs]; exact set_descs rfl
  · exact set_descs rfl

theorem State.beginFetches_frame (is : List Nat) (s : State) :
    is.foldl State.beginFetch s =
      { s with entries := (is.foldl State.beginFetch s).entries
               port := { s.port with list := (is.foldl State.beginFetch s).port.list } } := by
  induction is generalizing s with
  | nil => rfl
  | cons i is ih => simp only [List.foldl_cons]; rw [ih, State.beginFetch_frame]

theorem State.beginFetches_descs (is : List Nat) (s : State) :
    descs (is.foldl State.beginFetch s).entries = descs s.entries := by
  induction is generalizing s with
  | nil => rfl
  | cons i is ih => simp only [List.foldl_cons]; rw [ih, State.beginFetch_descs]

/-- Everything that the end of an access can reach. -/
theorem State.endAccess_frame (s : State) (r : AccessEnd) :
    s.endAccess r =
      { s with entries := (s.endAccess r).entries, checker := (s.endAccess r).checker, host := (s.endAccess r).host
               port := (s.endAccess r).port, queue := (s.endAccess r).queue, alerts := (s.endAccess r).alerts } := by
  unfold State.endAccess
  split
  · rfl
  · dsimp only
    split
    · rw [State.settle_frame]
      cases r <;> simp only [State.endHost, State.complete, State.failHost, State.returnToFetch, State.deliver]
      · split
        · rw [State.raise_frame]; rfl
        · rw [State.raise_frame]
      all_goals
        split
        · split
          · rw [State.raise_frame]; rfl
          · rw [State.raise_frame]
        · rw [State.beginFetches_frame]
          split
          · rw [State.raise_frame]; rfl
          · rw [State.raise_frame]
    · rw [State.settle_frame]
      unfold State.endFetch
      split
      · rfl
      · dsimp only
        split
        · rfl
        · cases r
          · rfl
          all_goals simp only [State.failFetch]; rw [State.raise_frame]; rfl
    · rw [State.settle_frame]

/-! ## The requests of the link -/

/-- A request whose frame is not the one in progress is not taken. -/
theorem State.serve_of_not_awaited {s : State} {code : Byte} {n : Nat} {p : List Byte} {f : State → State × Reply}
    (h : s.link.awaits code p = false) : s.serve code n p f = s := by
  simp [State.serve, h]

/-- A payload of another length is answered BAD_PARAM 0 (R160). -/
theorem State.serve_of_length {s : State} {code : Byte} {n : Nat} {p : List Byte} {f : State → State × Reply}
    (h : s.link.awaits code p = true) (hn : p.length ≠ n) : s.serve code n p f = s.respond code p (.badParam 0) := by
  simp [State.serve, h, hn]

/-- A frame that passes is performed, and answered by the link (R159). -/
theorem State.serve_eq {s : State} {code : Byte} {n : Nat} {p : List Byte} {f : State → State × Reply}
    (h : s.link.awaits code p = true) (hn : p.length = n) : s.serve code n p f = (f s).1.respond code p (f s).2 := by
  simp [State.serve, h, hn]

/-- An index above the table is answered BAD_INDEX (R160). -/
theorem State.serveEntry_of_index {s : State} {code : Byte} {n : Nat} {p : List Byte} {f : Nat → State → State × Reply}
    (h : s.link.awaits code p = true) (hn : p.length = n) (hi : entryCount ≤ (p.getD 0 0).toNat) :
    s.serveEntry code n p f = s.respond code p .badIndex := by
  rw [State.serveEntry, State.serve_eq h hn, if_neg (Nat.not_lt.mpr hi)]

/-- An entry request that names an entry is performed on it. -/
theorem State.serveEntry_eq {s : State} {code : Byte} {n : Nat} {p : List Byte} {f : Nat → State → State × Reply}
    (h : s.link.awaits code p = true) (hn : p.length = n) (hi : (p.getD 0 0).toNat < entryCount) :
    s.serveEntry code n p f = (f (p.getD 0 0).toNat s).1.respond code p (f (p.getD 0 0).toNat s).2 := by
  rw [State.serveEntry, State.serve_eq h hn, if_pos hi]

end Sys2Proof.Machine
end

