-- ==== Sys2Proof/Laws/Link.lean ====
section
/-! SUPPORT. The pins: codes and bit order, the filter of the reset pins, and what an edge of a clock can do. -/

namespace Sys2Proof.Machine

/-! ## Codes and bits -/

@[simp] theorem dirOfLevel_dirHigh (d : Direction) : dirOfLevel (dirHigh d) = d := by cases d <;> rfl

@[simp] theorem dirHigh_dirOfLevel (b : Bool) : dirHigh (dirOfLevel b) = b := by cases b <;> rfl

@[simp] theorem lengthOfCode_lengthCode (l : BurstLength) : lengthOfCode (lengthCode l) = l := by cases l <;> decide

@[simp] theorem lengthCode_lengthOfCode : ∀ c : BitVec 2, lengthCode (lengthOfCode c) = c := by decide

/-- The bits of a byte, first bit most significant, form it again (R155). -/
@[simp] theorem byteOfBits_bitsOf : ∀ b : Byte, byteOfBits (bitsOf b) = b := by decide +kernel

@[simp] theorem bitsOf_length (b : Byte) : (bitsOf b).length = 8 := rfl

/-- With no bit sampled the byte in progress can be any. -/
@[simp] theorem Link.canBe_of_no_bits {l : Link} (h : l.bits = []) (b : Byte) : l.canBe b = true := by
  simp [Link.canBe, h]

/-! ## The filter of the reset pins (R190) -/

/-- A level that is not new, or was not sampled at the edge before, changes the sample alone. -/
theorem State.sampleSrstn_of_steady {s : State} {low : Bool} (h : low ≠ s.pins.srstnSample ∨ low = s.pins.srstnLow) :
    s.sampleSrstn low = { s with pins := { s.pins with srstnSample := low } } := by
  unfold State.sampleSrstn
  rw [if_neg]
  rintro ⟨h1, h2⟩
  exact h.elim (fun k => k h1) h2

theorem State.sampleHrstn_of_steady {s : State} {low : Bool} (h : low ≠ s.pins.hrstnSample ∨ low = s.pins.hrstnLow) :
    s.sampleHrstn low = { s with pins := { s.pins with hrstnSample := low } } := by
  unfold State.sampleHrstn
  rw [if_neg]
  rintro ⟨h1, h2⟩
  exact h.elim (fun k => k h1) h2

/-- Everything that a sample of SRSTN can reach. -/
theorem State.sampleSrstn_cases (s : State) (low : Bool) :
    s.sampleSrstn low = { s with pins := { s.pins with srstnSample := low } } ∨
      low = true ∧ s.pins.srstnLow = false ∧ s.sampleSrstn low = s.takeSrstnFall ∨
      low = false ∧ s.pins.srstnLow = true ∧ s.sampleSrstn low = s.takeSrstnRise := by
  unfold State.sampleSrstn
  cases low <;> by_cases h : s.pins.srstnLow = true <;> by_cases k : s.pins.srstnSample = true <;> simp_all

/-- Everything that a sample of HRSTN can reach. -/
theorem State.sampleHrstn_cases (s : State) (low : Bool) :
    s.sampleHrstn low = { s with pins := { s.pins with hrstnSample := low } } ∨
      low = true ∧ s.pins.hrstnLow = false ∧ s.sampleHrstn low = s.takeHrstnFall ∨
      low = false ∧ s.pins.hrstnLow = true ∧ s.sampleHrstn low = s.takeHrstnRise := by
  unfold State.sampleHrstn
  cases low <;> by_cases h : s.pins.hrstnLow = true <;> by_cases k : s.pins.hrstnSample = true <;> simp_all

/-! ## Edges -/

/-- An edge of BCLK may give an answer that was held, and does its three works one after another; what each of them keeps, the
edge keeps. -/
theorem State.bclkEdge_keeps {P : State → Prop} (hs : ∀ s low, P s → P (s.sampleSrstn low))
    (hh : ∀ s low, P s → P (s.sampleHrstn low)) (hp : ∀ s, P s → P s.bclkPeriod) (hg : ∀ s, P s → P s.giveAnswer)
    {s : State} (h : P s) (a b : Bool) (order : Fin 6) : P (s.bclkEdge a b order) := by
  have hw : ∀ (w : EdgeWork) (t : State), P t → P (t.edgeWork a b w) := by
    intro w t ht
    cases w
    · exact hs t a ht
    · exact hh t b ht
    · exact hp t ht
  have hl : ∀ (ws : List EdgeWork) (t : State), P t → P (ws.foldl (State.edgeWork a b) t) := by
    intro ws
    induction ws with
    | nil => exact fun t ht => ht
    | cons w ws ih => exact fun t ht => ih _ (hw w t ht)
  unfold State.bclkEdge
  split
  · exact h
  · refine hl _ _ ?_
    split
    · exact h
    · exact hg s h

/-- A falling edge of SCK reaches the two pins alone. -/
theorem State.sckFalls_frame (s : State) : s.sckFalls = { s with pins := s.sckFalls.pins } := rfl

/-- A rising edge of SCK samples a bit, or completes a byte and runs the command that the byte is, or is ignored. -/
theorem State.sckRises_cases (s : State) (sdi : Bool) :
    s.sckRises sdi = .next { s with pins := { s.pins with sckHigh := true } } ∨
      s.sckRises sdi =
        .next { s with pins := { s.pins with sckHigh := true }, link := { s.link with bits := s.link.bits ++ [sdi] } } ∨
      s.sckRises sdi =
        exec (s.link.byteCommand (byteOfBits (s.link.bits ++ [sdi]))) s := by
  unfold State.sckRises
  dsimp only
  split
  · exact Or.inl rfl
  · split
    · exact Or.inr (Or.inl rfl)
    · exact Or.inr (Or.inr rfl)

end Sys2Proof.Machine
end

