-- ==== Sys2Proof/Tests/Slice0.lean ====
section
/-! SUPPORT. Checks of the model on small states: well-formedness, the manual's examples, and, for each statement with
hypotheses, a state and operands that meet them (`meets_…`), with one for each of its clauses. -/

namespace Sys2Proof.Tests

open Sys2Proof Sys2Proof.Machine
set_option Elab.async false

/-! ## Well-formedness -/

theorem test_wf_refuses_long_payload : (Instr.identify (List.replicate 41 0)).wf = false := by decide +kernel
theorem test_wf_takes_longest_payload : (Instr.identify (List.replicate 40 0)).wf = true := by decide +kernel
theorem test_wf_refuses_known_code : (Instr.badCommand 0x60 []).wf = false := by decide
theorem test_wf_refuses_long_bad_command : (Instr.badCommand 0x70 (List.replicate 41 0)).wf = false := by decide +kernel
theorem test_wf_takes_bad_command : (Instr.badCommand 0x70 [1]).wf = true := by decide
theorem test_wf_refuses_lapse_outside_table : (Instr.deadlineLapse 48 .alertFirst).wf = false := by decide
theorem test_wf_refuses_window_outside_table : (Instr.rateWindowOpens 48 .alertFirst).wf = false := by decide
theorem test_wf_takes_last_entry : (Instr.deadlineLapse 47 .recordsFirst).wf = true := by decide
theorem test_no_row_has_bits : decodeTableWord 8 0x40 = none := by decide

/-! ## Small states -/

/-- The part after initialisation. -/
def ready : State := { State.reset with power := .running }

/-- A table with these entries and no others. -/
def tableOf (es : List (Nat × Entry)) : List Entry := es.foldl (fun t e => t.set e.1 e.2) resetEntries

/-- The part with these entries. -/
def watching (es : List (Nat × Entry)) : State := { ready with entries := tableOf es }

/-- The part with a select period in progress and no byte received. -/
def asked (s : State) : State :=
  { s with pins := { s.pins with csnLow := true, sdo := some false }, link := { Link.idle with phase := .request } }

/-- Entry 7 of Table 1-6: the low byte of 004010h must read 03h. -/
def condition : Descriptor :=
  ⟨.condition, .total, false, .writes, .reject, 1, 0x004010, 0x004010, 0x000000FF, 0x00000003, 0, 0, true⟩

def deadline : Descriptor := ⟨.deadline, .total, false, .both, .pass, 0, 0x004000, 0x0040FF, 0, 0, 50, 0, false⟩
def total : Descriptor := ⟨.count, .total, true, .writes, .pass, 2, 0x004010, 0x004010, 0xFF, 0, 5, 0, false⟩
def rate : Descriptor := ⟨.count, .rate, false, .writes, .drop, 2, 0x004000, 0x00401F, 0, 0, 2, 3, false⟩

/-- An ARMED entry with these runtime fields. -/
def armed (d : Descriptor) (rt : Runtime) : Entry := ⟨.armed, some d, rt⟩

def shadowed : Entry := armed condition { Runtime.zero with shadow := 0x12345603 }
def lastTick : Entry := armed deadline { Runtime.zero with remaining := 1 }
def lapsed : Entry := ⟨.lapsed, some deadline, { Runtime.zero with lapseTick := 7 }⟩
def closing : Entry := armed rate { Runtime.zero with windowLeft := 1, windowTripped := true }
def fetching (d : Descriptor) : Entry := ⟨.fetching, some d, d.startValues⟩
def pending (d : Descriptor) : Entry := ⟨.pending, some d, d.startValues⟩
def loaded (d : Descriptor) : Entry := ⟨.loaded, some d, d.startValues⟩

/-- An entry of each watching sort. -/
def busyTable : State := watching [(0, shadowed), (1, lastTick), (2, closing), (3, lapsed), (4, loaded condition), (5, loaded rate)]

/-- The memory port with the fetch of entry 7 on the bus. -/
def fetchPort (orphaned : Bool) : MemoryPort :=
  ⟨[⟨7, 0x004010, .issued, orphaned⟩], some ⟨.fetch, 0x004010, .read, 1⟩, some .kind3⟩

/-- Entry 7 FETCHING, its fetch on the bus. -/
def fetchingSeven : State := { watching [(7, fetching condition)] with port := fetchPort false }

/-- The same with the fetch orphaned and the entry LOADED. -/
def orphanedSeven : State := { watching [(7, loaded condition)] with port := fetchPort true }

def writeOp : BeatOp := .write 0x00000007 1
def write (state : BeatState) : Transaction := ⟨0x004010, .write, .one, 0, .normal, some ⟨1, 0x004010, writeOp, state⟩, none⟩

/-- A write held on entry 7 (Table 2-5). -/
def heldWrite : State := { fetchingSeven with host := some (write .held), checker := some ⟨[7], [7]⟩ }

/-- A write at memory, its answer wanted, with an ARMED entry on its word and one LAPSED over it. -/
def writeAtMemory : State :=
  { watching [(0, shadowed), (3, lapsed)] with
    host := some (write .atMemory), port := ⟨[], some ⟨.host true, 0x004010, writeOp, 1024⟩, some .kind2⟩ }

/-- The same access after a host reset. -/
def writeAborted : State :=
  { writeAtMemory with host := none, port := ⟨[], some ⟨.host false, 0x004010, writeOp, 1024⟩, some .kind2⟩ }

/-- This part with the first beat of a write of two beats DECIDED so, its answer held. -/
def holding (d : Disposition) (s : State) : State :=
  { s with host := some ⟨0x004010, .write, .two, 0, .normal, some ⟨1, 0x004010, writeOp, .decided d⟩, d.ownAnswer⟩ }

/-- A DEADLINE entry of reload 1, a completion having come since the last tick or not. -/
def shortest (spared : Bool) : Entry :=
  armed { deadline with reload := 1 } { Runtime.zero with remaining := 1, spared := spared }

/-- A fetch on the bus that a supervisor reset took out of the list. -/
def strayFetch : State := { ready with port := ⟨[], some ⟨.strayFetch, 0x004010, .read, 1⟩, none⟩ }

/-- Eight entries FETCHING, the list full, and entry 9 LOADED, entry 10 ARMED. -/
def fullList : State :=
  { watching ((List.range 8).map (fun i => (i, fetching condition)) ++ [(9, loaded condition), (10, shadowed)]) with
    port := ⟨⟨0, 0x004010, .issued, false⟩ :: ((List.range 7).map fun i => ⟨i + 1, 0x004010, .queued, false⟩),
      some ⟨.fetch, 0x004010, .read, 1⟩, some .kind3⟩ }

/-- Eight entries FETCHING, the list full; entry 8 PENDING on another word and entry 9 on the word of a held write. -/
def crowded : State :=
  { watching ((List.range 8).map (fun i => (i, fetching condition)) ++
      [(8, pending { condition with base := 0x005000, limit := 0x005000 }), (9, pending condition)]) with
    port := fullList.port, host := some (write .held)
    checker := some ⟨[0, 1, 2, 3, 4, 5, 6, 7, 9], [0, 1, 2, 3, 4, 5, 6, 7, 9]⟩ }

/-- A write at memory with two ARMED entries on its word and one place left in the fetch list. -/
def onePlace : State :=
  { watching ((List.range 7).map (fun i => (i, fetching condition)) ++ [(10, shadowed), (11, shadowed)]) with
    host := some (write .atMemory)
    port := ⟨(List.range 7).map fun i => ⟨i, 0x004010, .queued, false⟩, some ⟨.host true, 0x004010, writeOp, 1⟩, some .kind2⟩ }

/-- A part that is SUSPENDED, with a PENDING entry, a LOADED one and a frozen one. -/
def suspended : State :=
  { watching [(6, pending condition), (7, loaded condition), (8, lastTick)] with mode := .suspended }

def hostReset (c : ClassNo) : Event := { kind := .hostReset, cls := c, tick := 0, detail := some 0 }

/-- So many records of a class in the queue, with the class count that goes with them. -/
def queued (n : Nat) (c : ClassNo) : State :=
  { ready with
    queue := { ready.queue with
      records := (List.range n).map fun i => ⟨BitVec.ofNat 16 i, hostReset c⟩, next := BitVec.ofNat 16 n }
    alerts := ready.alerts.set c { ClassState.reset with count := n, line := decide (0 < n) } }

/-- Class 2 in STROBE mode with this pulse remaining. -/
def strobing (mask : Bool) (pulse : Nat) : State :=
  { ready with alerts := ready.alerts.set 2 ⟨mask, .strobe, 3, false, 0, pulse, decide (0 < pulse)⟩ }

/-! ## The manual's examples -/

theorem test_identify_frame_crc : crcOf [0x01, 0x00] = 0xC2 := by decide +kernel
theorem test_read_status_frame_crc : crcOf [0x02, 0x00] = 0xFD := by decide +kernel
theorem test_zero_bytes_crc : crcOf [0x00, 0x00] = 0xD7 := by decide +kernel

/-- Table 9-10. -/
theorem test_record_of_table_9_10 :
    Record.bytes ⟨0x0201, tripEvent .conditionBroken 7 shadowed 0x004010 writeOp 0x0001F400 .rejected⟩ =
      [0x02, 0x01, 0x01, 0x01, 0x07, 0x3F, 0x00, 0x01, 0xF4, 0x00, 0x00, 0x40, 0x10, 0x21, 0x12, 0x34, 0x56, 0x03, 0x12, 0x34,
        0x56, 0x07, 0x00, 0x00] := by decide

/-- Table 2-4: the merged value. -/
theorem test_merged_value : merged 0x12345603 0x00000007 1 = 0x12345607 := by decide


/-- Entry 7 of Table 1-6 as LOAD ENTRY carries it. -/
theorem test_descriptor_bytes :
    condition.bytes =
      [0x01, 0x00, 0x01, 0x02, 0x01, 0x00, 0x40, 0x10, 0x00, 0x40, 0x10, 0x00, 0x00, 0x00, 0xFF, 0x00, 0x00, 0x00, 0x03, 0x00,
        0x00, 0x00, 0x00, 0x01] := by decide

/-- A stale window is named by its number (R4). -/
theorem test_stale_window_fails_field_12 :
    (match checkDescriptor { condition with window := 1 }.bytes with | .error n => n | .ok _ => 0) = 12 := by decide

/-- The state that an outcome reaches; the state given where it reaches none. -/
def reached (s : State) : Host.Outcome State Fault Refusal → State
  | .next t => t
  | _ => s

/-- The breaking write of Table 4-4, step 5, decided. -/
def rejectedWrite : State :=
  reached ready (exec (.transactionRequestTaken 0x004010 true 0 0x00000007 1) (watching [(7, shadowed)]))

/-- A REJECTED single write is DECIDED, ERROR is held, and the next edge of BCLK gives it and ends the transaction. -/
theorem test_breaking_write_is_rejected :
    rejectedWrite.heldAnswer = some .error ∧ rejectedWrite.out.answer = none ∧ rejectedWrite.queue.records.length = 1 ∧
      (rejectedWrite.bclkEdge false false 0).out.answer = some .error ∧ (rejectedWrite.bclkEdge false false 0).host = none := by
  decide +kernel

/-- R89: a host reset before the answer discards it; the event of the decision stands, ahead of HOST_RESET with detail 1. -/
theorem test_host_reset_discards_a_held_answer :
    (reached ready (exec .hostReset rejectedWrite)).host = none ∧
      (reached ready (exec .hostReset rejectedWrite)).out.answer = none ∧
      (reached ready (exec .hostReset rejectedWrite)).queue.records.map (fun r => (r.event.kind, r.event.detail)) =
        [(.conditionBroken, none), (.hostReset, some 1)] := by decide +kernel

/-- R83, R89: HRSTN falls at the edge that ends the access at the response limit: no order of the edge's work gives the answer,
and the transaction is aborted. -/
theorem test_fall_at_the_response_limit : ∀ order : Fin 6,
    let t := State.bclkEdge { writeAtMemory with pins := { ready.pins with hrstnSample := true } } false true order
    t.host = none ∧ t.out.answer = none ∧
      t.queue.records.any (fun r => decide (r.event.kind = .hostReset ∧ r.event.detail = some 1)) = true := by
  decide +kernel

/-- Table 3-3: the ERROR of the write that fails at step 2 is held, and the edge of BCLK of step 3, at which the fetch ends, gives
it; a host reset after step 2 discards it with detail 1, one after step 3 finds no transaction. -/
theorem test_answer_is_given_at_the_next_memory_ready :
    let step2 := reached ready (exec .responseLimit writeAtMemory)
    let step3 := reached ready (exec (.memoryReady 0 true) step2)
    let details := fun s : State => (reached ready (exec .hostReset s)).queue.records.getLast?.map fun r => r.event.detail
    step2.heldAnswer = some .error ∧ step3.out.answer = some .error ∧ step3.host = none ∧
      details step2 = some (some 1) ∧ details step3 = some (some 0) := by decide +kernel

/-- R155, R182: in RESPONSE the last bit of a byte is high on SDO when SRSTN falls; the rising edge that ends the byte leaves it
there, and the falling edge after it puts the 0 of TRAILING. -/
theorem test_rising_edge_leaves_sdo :
    let s := State.sckFalls { asked ready with
      link := { Link.idle.checked 0x01 [] (.ok identity) with phase := .response, position := 4, bits := List.replicate 7 false } }
    let t := reached ready (s.takeSrstnFall.sckRises true)
    s.sdoPin = some true ∧ s.takeSrstnFall.link.phase = .trailing ∧ t.sdoPin = some true ∧ t.pins.sckHigh = true ∧
      t.link.bits = [] ∧ t.sckFalls.sdoPin = some false ∧
      (reached ready (exec .responseByteSent s.takeSrstnFall)).sdoPin = some true := by decide +kernel

/-- R49, R107: reload 1. The tick after a completion does not lapse the entry, the tick after that does. -/
theorem test_reload_one_is_spared_once :
    (shortest true).lapsesAtTick = false ∧ (shortest true).ticked 9 = shortest false ∧
      ((shortest true).ticked 9).lapsesAtTick = true ∧
      (shortest false).completed .monitoring 0x004000 .read 0 = shortest true := by decide +kernel

/-- R14: the place that a fetch leaves goes to entry 9, which blocks the held write, and not to entry 8; its request joins the
promoted group. -/
theorem test_blocking_entry_takes_the_place :
    let t := reached ready (exec (.memoryReady 3 false) crowded)
    (t.entry 9).state = .fetching ∧ (t.entry 8).state = .pending ∧
      t.port.list.map FetchRequest.entry = [1, 2, 3, 4, 5, 6, 7, 9] := by decide +kernel

/-- R71: of two entries that return to fetch the lower index takes the one place. -/
theorem test_lower_entry_takes_the_place :
    let t := reached ready (exec (.memoryReady 0 true) onePlace)
    (t.entry 10).state = .fetching ∧ (t.entry 11).state = .pending := by decide +kernel

/-- R190: SRSTN sampled low at one edge alone is not taken; at two in a row it is, and two high ones take the rise. -/
theorem test_filter_takes_the_second_sample :
    (ready.sampleSrstn true).pins.srstnLow = false ∧ ((ready.sampleSrstn true).sampleSrstn false).pins = ready.pins ∧
      ((ready.sampleSrstn true).sampleSrstn true).pins.srstnLow = true ∧
      ((((ready.sampleSrstn true).sampleSrstn true).sampleSrstn false).sampleSrstn false).pins = ready.pins ∧
      ((heldWrite.sampleHrstn true).sampleHrstn true).host = none ∧ (heldWrite.sampleHrstn true).host = heldWrite.host := by
  decide +kernel

/-- The byte C2h by its bits, and R155 in both modes: IDENTIFY clocked bit by bit is answered. -/
theorem test_bits_of_a_byte : bitsOf 0xC2 = [true, true, false, false, false, false, true, false] ∧
    byteOfBits (bitsOf 0xC2) = 0xC2 := by decide

theorem test_identify_bit_by_bit :
    (reached ready (State.clockBits ([0x01, 0x00, 0xC2].flatMap bitsOf) (asked ready))).link =
        (Link.idle.checked 0x01 [] (.ok identity)) ∧
      (reached ready (State.clockBits (bitsOf 0x01 ++ [true, false]) (asked ready))).link.bits = [true, false] := by
  decide +kernel

/-- In this step an edge of BCLK takes a fall of SRSTN, and the mode changes. -/
theorem test_taken_fall_changes_the_mode :
    ({ suspended with pins := { ready.pins with srstnSample := true } }.bclkEdge true false 0).mode = .monitoring ∧
      suspended.mode = .suspended := by decide +kernel

/-- R155: a rise of CSN part way through a byte discards its bits and releases SDO. -/
theorem test_part_byte_is_discarded :
    (reached ready (execCsnRise (reached ready (State.clockBits [true, false] (asked ready))))).link = Link.idle ∧
      (reached ready (execCsnRise (reached ready (State.clockBits [true, false] (asked ready))))).sdoPin = none := by
  decide +kernel

/-- The status byte 01h on SDO: its last bit, after seven of its bits were clocked, is the one that is high. -/
theorem test_sdo_most_significant_first :
    (List.range 8).map (fun k => (reached ready (State.clockBits (List.replicate (8 + k) false)
        { asked ready with link := Link.idle.checked 0x01 [] (.ok identity) })).sckFalls.sdoPin) =
      [some false, some false, some false, some false, some false, some false, some false, some true] := by decide +kernel

/-- R190: HLEN 3 is eight beats, HDIR high is a write; MDIR is high for a write. -/
theorem test_pin_codes :
    lengthOfCode 3 = .eight ∧ [BurstLength.one, .two, .four, .eight].map lengthCode = [0, 1, 2, 3] ∧
      dirOfLevel true = .write ∧ writeAtMemory.memoryPins.mdir = true ∧ fetchingSeven.memoryPins.mdir = false := by decide

/-! ## Hypotheses that are met -/

theorem meets_idle_step : State.reset.pending = [] ∧ State.reset.power = .powerUpReset ∧ ready.power = .running ∧
    ready.port.bus = none ∧ writeAtMemory.port.bus.any (fun a => decide (1024 ≤ a.period)) = true ∧
    fetchingSeven.port.bus.any (fun a => decide (a.period < 1024)) = true ∧
    { ready with power := .initialising 14 }.power = .initialising 14 ∧
    { ready with power := .initialising 15 }.power = .initialising 15 ∧
    ready.pins.sckHigh = false ∧ { ready with pins := { ready.pins with sckHigh := true } }.pins.sckHigh = true ∧
    true ≠ ready.pins.srstnSample ∧ false = ready.pins.hrstnLow ∧
    (holding .rejected ready).heldAnswer ≠ none ∧ (holding .rejected ready).hostPortOpen = true := by decide

/-- Whether the traffic of a state is sound can be computed. -/
def trafficDecided (s : State) : Decidable s.trafficSound :=
  have _h1 : Decidable s.tableSound := by unfold State.tableSound; infer_instance
  have _h2 : Decidable s.suspensionSound := by unfold State.suspensionSound; infer_instance
  have _h3 : Decidable s.fetchSound := by unfold State.fetchSound; infer_instance
  have _h4 : Decidable s.accessSound := by unfold State.accessSound; infer_instance
  have _h5 : Decidable s.holdSound := by unfold State.holdSound; infer_instance
  have _h6 : Decidable s.arbiterSound := by unfold State.arbiterSound; infer_instance
  have _h7 : Decidable s.roomSound := by unfold State.roomSound; infer_instance
  have _h8 : Decidable s.hostSound := by unfold State.hostSound; infer_instance
  by unfold State.trafficSound; infer_instance

theorem sound_of_decided {s : State} (h : @decide _ (trafficDecided s) = true) : s.trafficSound :=
  @of_decide_eq_true _ (trafficDecided s) h

theorem sound_ready : ready.trafficSound := sound_of_decided (by decide +kernel)
theorem sound_busyTable : busyTable.trafficSound := sound_of_decided (by decide +kernel)
theorem sound_fetchingSeven : fetchingSeven.trafficSound := sound_of_decided (by decide +kernel)
theorem sound_orphanedSeven : orphanedSeven.trafficSound := sound_of_decided (by decide +kernel)
theorem sound_heldWrite : heldWrite.trafficSound := sound_of_decided (by decide +kernel)
theorem sound_writeAtMemory : writeAtMemory.trafficSound := sound_of_decided (by decide +kernel)
theorem sound_writeAborted : writeAborted.trafficSound := sound_of_decided (by decide +kernel)
theorem sound_strayFetch : strayFetch.trafficSound := sound_of_decided (by decide +kernel)
theorem sound_fullList : fullList.trafficSound := sound_of_decided (by decide +kernel)
theorem sound_crowded : crowded.trafficSound := sound_of_decided (by decide +kernel)
theorem sound_onePlace : onePlace.trafficSound := sound_of_decided (by decide +kernel)
theorem sound_suspended : suspended.trafficSound := sound_of_decided (by decide +kernel)
theorem sound_holding : (holding .dropped busyTable).trafficSound ∧ (holding .rejected fetchingSeven).trafficSound ∧
    (holding .rejected writeAborted).trafficSound :=
  ⟨sound_of_decided (by decide +kernel), sound_of_decided (by decide +kernel), sound_of_decided (by decide +kernel)⟩


/-- A state reaches a next state by a step with this command in front. -/
def steps (c : Instr) (s : State) : Bool :=
  match step { s with pending := [c] } with
  | .next _ => true
  | _ => false

theorem meets_StepKeepsTrafficSound :
    heldWrite.trafficSound ∧ steps (.memoryReady 0x12345603 false) heldWrite = true ∧
      suspended.trafficSound ∧ steps .responseLimit suspended = true :=
  ⟨sound_heldWrite, by decide +kernel, sound_suspended, by decide +kernel⟩

theorem meets_StepKeepsQueueAndAlertsSound :
    ((queued 32 3).queueSound ∧ (queued 32 3).alertSound) ∧ (strobing true 1).queueSound ∧ (strobing true 1).alertSound ∧
      steps .hostReset (queued 32 3) = true := by
  unfold State.queueSound State.alertSound ClassState.sound; decide +kernel

/-- REFCLK selected, its last edge 63 IRC periods ago. -/
def clocked63 : State := { ready with time := ⟨.refclk, 25, 0, 9, .running, 63, 0⟩ }

/-- LOST, the run at 15, this gap. -/
def lost (gap : Nat) : State := { ready with time := ⟨.irc, 1, 0, 9, .lost, gap, 15⟩ }

theorem meets_StepKeepsTimeSound : clocked63.timeSound ∧ (lost 64).timeSound ∧ steps .gapCountExpiry clocked63 = true := by
  unfold State.timeSound; decide +kernel

theorem meets_StepKeepsLinkSound :
    (asked ready).linkSound ∧ (asked ready).frameSound ∧ steps (.requestByteReceived 1) (asked ready) = true := by
  unfold State.linkSound State.frameSound; decide +kernel

/-- The part with this much of initialisation passed. -/
def starting (n : Nat) : State := { State.reset with power := .initialising n }

theorem meets_StartUpAndPinRises :
    State.reset.power = .powerUpReset ∧ ready.power ≠ .powerUpReset ∧ (starting 0).power = .initialising 0 ∧
      ∀ n, ready.power ≠ .initialising n := by
  refine ⟨by decide, by decide, by decide, ?_⟩
  intro n h; cases h

/-- Each level of SRSTN and HRSTN with each sample of it. -/
def sampled (taken sample : Bool) : Pins := ⟨false, false, taken, sample, taken, sample, none⟩

theorem meets_reset_pin_filter :
    true ≠ (sampled false false).srstnSample ∧ (sampled false true).srstnSample = true ∧
      (sampled false true).srstnLow = false ∧ (sampled true false).srstnSample = false ∧
      (sampled true false).srstnLow = true ∧ (sampled true true).srstnLow = true := by decide

theorem meets_SrstnFallIsASupervisorReset :
    heldWrite.trafficSound ∧ heldWrite.power = .running ∧ heldWrite.pins.srstnLow = false ∧
      (starting 3).power = .initialising 3 ∧ { ready with pins := { ready.pins with srstnLow := true } }.pins.srstnLow = true :=
  ⟨sound_heldWrite, by decide, by decide, by decide, by decide⟩

theorem meets_HostResetAbortsTheTransaction :
    heldWrite.power = .running ∧ heldWrite.pins.hrstnLow = false ∧ heldWrite.host.isSome = true ∧ ready.host = none ∧
      (starting 3).power = .initialising 3 ∧ { ready with pins := { ready.pins with hrstnLow := true } }.pins.hrstnLow = true ∧
      { ready with pins := { ready.pins with hrstnSample := true } }.pins.hrstnSample = true ∧
      (holding .rejected ready).host.isSome = true := by decide

theorem takes_ready : ready.takesBeats := by unfold State.takesBeats; decide

/-- A transaction in this course with one beat answered. -/
def between (course : Course) : State := { ready with host := some ⟨0x004010, .write, .two, 1, course, none, none⟩ }

theorem meets_RefusedBurstIsAnsweredErrorAlone :
    ready.takesBeats ∧ ready.host = none ∧ 0xFFFFFF < (0xFFFFF9 : Addr).toNat + BurstLength.eight.beats - 1 ∧
      (0xFFFFF8 : Addr).toNat + BurstLength.eight.beats - 1 ≤ 0xFFFFFF ∧
      (0xFFFFFF : Addr).toNat + BurstLength.one.beats - 1 ≤ 0xFFFFFF ∧ (between .refused).takesBeats ∧
      (between .refused).hostAnswered.any (fun x => decide (x.course ≠ .normal ∧ x.current = none)) = true ∧
      (between .cut).hostAnswered.any (fun x => decide (x.course ≠ .normal ∧ x.current = none)) = true ∧
      (holding .rejected ready).hostAnswered.any (fun x => decide (x.course = .cut ∧ x.current = none)) = true ∧
      rejectedWrite.hostAnswered = none ∧ rejectedWrite.heldAnswer = some .error ∧ rejectedWrite.takesBeats ∧
      heldWrite.hostAnswered.any (fun x => decide (x.current ≠ none)) = true ∧ ¬State.reset.takesBeats :=
  ⟨takes_ready, by decide, by decide, by decide, by decide, by unfold State.takesBeats; decide, by decide, by decide,
    by decide, by decide +kernel, by decide +kernel, by unfold State.takesBeats; decide +kernel, by decide,
    by unfold State.takesBeats; decide⟩

/-- What a beat offered to this state meets: whether entries block it, and else its disposition. -/
def meets (c : Instr) (s : State) : Option (Bool × Disposition) :=
  (beatOffered c s).map fun (x, data, strobes) =>
    (decide (blockingOf s.entries (x.start + BitVec.ofNat 24 x.answered) x.dir ≠ []),
      dispositionOf (actionsOn s.entries (x.start + BitVec.ofNat 24 x.answered) (beatOp x.dir data strobes)))

theorem meets_UnblockedBeatIsDecidedAtOnce :
    busyTable.trafficSound ∧ busyTable.mode = .monitoring ∧
      meets (.transactionRequestTaken 0x004010 true 0 7 1) busyTable = some (false, .rejected) ∧
      meets (.transactionRequestTaken 0x004000 true 1 7 1) busyTable = some (false, .dropped) ∧
      meets (.transactionRequestTaken 0x000000 false 3 0 0) busyTable = some (false, .passed) ∧
      busyTable.port.bus = none ∧ fetchingSeven.trafficSound ∧
      meets (.transactionRequestTaken 0x000000 false 3 0 0) fetchingSeven = some (false, .passed) ∧
      fetchingSeven.port.bus.isSome = true ∧ meets (.beatTaken 3 15) (between .normal) = some (false, .passed) ∧
      (holding .dropped busyTable).trafficSound ∧ (holding .dropped busyTable).heldAnswer = some .completionOk ∧
      meets (.beatTaken 3 15) (holding .dropped busyTable) = some (false, .dropped) :=
  ⟨sound_busyTable, by decide, by decide +kernel, by decide +kernel, by decide +kernel, by decide, sound_fetchingSeven,
    by decide +kernel, by decide, by decide +kernel, sound_holding.1, by decide, by decide +kernel⟩

theorem meets_BlockedBeatIsHeld :
    fetchingSeven.trafficSound ∧ fetchingSeven.mode = .monitoring ∧
      (meets (.transactionRequestTaken 0x004010 true 0 7 1) fetchingSeven).map Prod.fst = some true ∧
      shadowed.covers 0x004010 .write = true ∧ shadowed.covers 0x004010 .read = false ∧
      lapsed.covers 0x004000 .read = true ∧ lapsed.covers 0x0040FF .write = true ∧ lapsed.covers 0x004100 .write = false ∧
      lapsed.covers 0x003FFF .write = false ∧ (loaded condition).covers 0x004010 .write = false ∧
      blockingOf fetchingSeven.entries 0x004010 .write = [7] :=
  ⟨sound_fetchingSeven, by decide, by decide +kernel, by decide +kernel, by decide +kernel, by decide +kernel,
    by decide +kernel, by decide +kernel, by decide +kernel, by decide +kernel, by decide +kernel⟩

/-- SUSPENDED with an orphaned fetch on the bus. -/
def suspendedBusy : State := { orphanedSeven with mode := .suspended }

theorem meets_SuspendedBeatPassesUnchecked :
    suspended.trafficSound ∧ suspended.port.bus = none ∧ suspendedBusy.trafficSound ∧ suspendedBusy.port.bus.isSome = true ∧
      (beatOffered (.transactionRequestTaken 0x004010 true 0 7 1) suspended).isSome = true ∧
      (beatOffered (.transactionRequestTaken 0x004010 true 0 7 1) suspendedBusy).isSome = true :=
  ⟨sound_suspended, by decide, sound_of_decided (by decide +kernel), by decide, by decide, by decide⟩

theorem meets_ConditionTripsOnBreakingWrite :
    shadowed.covers 0x004010 .write = true ∧
      condition.conforming (merged 0x12345603 7 1) = false ∧ condition.conforming (merged 0x12345603 7 0) = true ∧
      condition.conforming 0x12345603 = true := by decide +kernel

/-- The TOTAL entry with this much remaining. -/
def counting (n : Nat) : Entry := armed total { Runtime.zero with remaining := n }

theorem meets_TotalTripsEveryReloadBeats :
    (counting 5).covers 0x004010 .write = true ∧ qualifies total (counting 5) (.write 0xFF 15) = true ∧ total.reload ≠ 0 ∧
      (counting 1).covers 0x004010 .write = true ∧ qualifies total (counting 1) (.write 0xFF 15) = true ∧
      (counting 5).rt.remaining = total.reload.toNat ∧
      merged (counting 5).rt.shadow 0xFF 15 &&& total.mask ≠ (counting 5).rt.shadow &&& total.mask := by decide +kernel

/-- The RATE entry with this allowance. -/
def allowing (n : Nat) (tripped : Bool) : Entry :=
  armed rate { Runtime.zero with allowance := n, windowLeft := 2, windowTripped := tripped }

theorem meets_RateTripsOnceBeyondAllowance :
    (allowing 2 false).covers 0x004000 .write = true ∧ (allowing 0 false).covers 0x00401F .write = true ∧
      (allowing 0 true).covers 0x004000 .write = true ∧
      qualifies rate (allowing 2 false) (.write 0 0) = true ∧ rate.changeOnly = false ∧
      merged (counting 5).rt.shadow 0xFF00 15 &&& total.mask = (counting 5).rt.shadow &&& total.mask ∧
      total.changeOnly = true ∧ lastTick.covers 0x004000 .read = true ∧ lapsed.state ≠ .armed := by decide +kernel

theorem meets_DispositionIsTheMostSevereAction : busyTable.tableSound := sound_busyTable.1

theorem meets_HostAccessCompletes_and_Fails :
    writeAtMemory.trafficSound ∧ writeAtMemory.port.bus.any (fun a => decide (a.owner = .host true)) = true ∧
      writeAborted.trafficSound ∧ writeAborted.port.bus.any (fun a => decide (a.owner = .host false)) = true ∧
      (writeAtMemory.entry 0).shadowBearing = true ∧ (writeAtMemory.entry 0).base = 0x004010 ∧
      (holding .rejected writeAborted).trafficSound ∧ (holding .rejected writeAborted).heldAnswer = some .error ∧
      onePlace.trafficSound ∧ onePlace.port.bus.any (fun a => decide (a.owner = .host true)) = true :=
  ⟨sound_writeAtMemory, by decide, sound_writeAborted, by decide, by decide +kernel, by decide +kernel, sound_holding.2.2,
    by decide, sound_onePlace, by decide⟩

/-- This part as it gives this answer. -/
def giving (a : Option HostAnswer) : State := { ready with out := ⟨a, none⟩ }

theorem meets_pins_of_HostAccessCompletes :
    ready.port.bus = none ∧ fetchingSeven.port.bus = some ⟨.fetch, 0x004010, .read, 1⟩ ∧
      writeAtMemory.port.bus = some ⟨.host true, 0x004010, writeOp, 1024⟩ ∧ (giving (some (.dataOk 5))).pins.hrstnLow = false ∧
      (giving (some .error)).out.answer = some .error ∧ State.reset.power = .powerUpReset ∧ State.reset.out.answer = none := by
  decide

theorem meets_CompletionReachesEntries :
    shadowed.sound = true ∧ shadowed.shadowBearing = true ∧ shadowed.base = 0x004010 ∧ condition.readBack = true ∧
      (0x12345607 : Word) ≠ shadowed.rt.shadow ∧ lastTick.sound = true ∧ lastTick.covers 0x004000 .read = true ∧
      lapsed.sound = true ∧ lapsed.covers 0x0040FF .write = true ∧ closing.sound = true ∧ closing.shadowBearing = false := by
  decide +kernel

theorem meets_FetchCompletionArmsItsEntry_and_FetchFailureLoadsItsEntry :
    fetchingSeven.trafficSound ∧ heldWrite.trafficSound ∧ crowded.trafficSound ∧ fetchingSeven.beatAtChecker = none ∧
      heldWrite.beatAtChecker.isSome = true ∧
      heldWrite.port.bus.any (fun a => decide (a.owner = .fetch)) = true ∧
      heldWrite.port.list.head?.any (fun r => !r.orphaned) = true :=
  ⟨sound_fetchingSeven, sound_heldWrite, sound_crowded, by decide, by decide, by decide, by decide⟩

theorem meets_OrphanedFetchEndsSilently :
    orphanedSeven.trafficSound ∧ orphanedSeven.port.list.head?.any (fun r => r.orphaned) = true ∧
      strayFetch.trafficSound ∧ strayFetch.port.bus.any (fun a => decide (a.owner = .strayFetch)) = true ∧
      ready.trafficSound ∧ ready.port.bus = none :=
  ⟨sound_orphanedSeven, by decide, sound_strayFetch, by decide, sound_ready, by decide⟩

/-- The bus free, the head request of entry 7 QUEUED, with this transaction and this last grant. -/
def waiting (host : Option Transaction) (last : Option GrantKind) : State :=
  { heldWrite with host := host, port := ⟨[⟨7, 0x004010, .queued, false⟩], none, last⟩ }

theorem meets_ArbiterGrantsByTable :
    (waiting (some (write .held)) none).choice = some .kind1 ∧
      { waiting (some (write (.decided .passed))) (some .kind3) with checker := none }.choice = some .kind2 ∧
      { waiting (some (write (.decided .passed))) (some .kind2) with checker := none }.choice = some .kind3 ∧
      ready.choice = none := by decide +kernel

theorem meets_PromotionReordersTheList : [3, 7].Pairwise (· < ·) := by decide

theorem meets_TickMovesCountsDown :
    (armed deadline { Runtime.zero with remaining := 2 }).sound = true ∧ lastTick.sound = true ∧
      (shortest true).sound = true ∧ (shortest false).sound = true ∧
      (allowing 0 true).sound = true ∧ closing.sound = true ∧ (counting 5).sound = true ∧ shadowed.sound = true ∧
      (∀ c, ((strobing true 4).alerts.get c).sound) ∧ ∀ c, ((strobing true 1).alerts.get c).sound := by
  unfold ClassState.sound; decide +kernel

/-- The last tick of a pulse of class 2, at which an entry of class 0 lapses. -/
def lapsing : State := { strobing true 1 with entries := tableOf [(1, lastTick)] }

theorem meets_NamedTickBringsItsOutcome :
    busyTable.power ≠ .powerUpReset ∧ busyTable.mode = .monitoring ∧ busyTable.entry 1 = lastTick ∧
      (watching [(1, shortest true)]).entry 1 = shortest true ∧ busyTable.entry 2 = closing ∧ ((strobing true 1).alerts.get 2).pulse = 1 ∧
      (lapsing.alerts.get 2).pulse = 1 ∧ (lapseEvents lapsing.entries 1).length = 1 ∧
      ((lapsing.raise (lapseEvents lapsing.entries 1)).alerts.get 2).pulse = 1 ∧
      ((reached ready (exec (.strobePulseEnd 2 .alertFirst) lapsing)).alerts.get 2).line = false := by decide +kernel

theorem meets_GapCountExpiry_Growth_and_RefclkEdge :
    clocked63.timeSound ∧ clocked63.time.gap < 64 ∧ clocked63.time.monitor = .running ∧ clocked63.time.source = .refclk ∧
      (lost 63).timeSound ∧ (lost 64).timeSound ∧ (lost 0).timeSound ∧ ready.power ≠ .powerUpReset := by
  unfold State.timeSound; decide +kernel

/-- REFCLK selected, its last edge this many IRC periods ago. -/
def onRefclk (gap : Nat) : State := { ready with time := ⟨.refclk, 25, 0, 9, .running, gap, 0⟩ }

theorem meets_irc_period_of_each_source :
    (onRefclk 62).timeSound ∧ (onRefclk 0).timeSound ∧ (onRefclk 62).time.gap < 63 ∧ clocked63.timeSound ∧
      clocked63.power ≠ .powerUpReset := by
  unfold State.timeSound; decide +kernel

theorem meets_irc_period_without_refclk :
    (lost 63).timeSound ∧ (lost 63).time.source = .irc ∧ (lost 64).timeSound ∧ (lost 64).time.gap = 64 := by
  unfold State.timeSound; decide +kernel

theorem meets_TickEveryDivisorPeriods :
    ready.timeSound ∧ ready.time.dividerCount = 0 ∧ ready.time.dividerCount + 1 < ready.time.divisor.toNat ∧
      (lost 0).timeSound ∧ (lost 0).time.dividerCount + 1 = (lost 0).time.divisor.toNat := by
  unfold State.timeSound; decide +kernel

theorem meets_SetTimebaseChecksThenSelects :
    (asked ready).link.awaits 0x50 [2, 0, 25] = true ∧ (asked ready).link.awaits 0x50 [0, 0, 0] = true ∧
      (asked ready).link.awaits 0x50 [1, 0, 24] = true ∧ (asked ready).link.awaits 0x50 [1, 0, 25] = true ∧
      (asked ready).time.monitor = .lost ∧ (asked clocked63).link.awaits 0x50 [1, 0, 25] = true ∧
      (asked clocked63).time.monitor = .running ∧ (asked ready).link.awaits 0x50 [0, 0, 1] = true := by decide +kernel

theorem meets_ModeAndTickCounterChangeOnlySo_and_HostTraffic :
    (∃ t, exec (.tick .alertFirst) ready = .next t) ∧ ∃ t, exec (.memoryReady 0 false) writeAtMemory = .next t :=
  ⟨⟨_, rfl⟩, _, rfl⟩

theorem meets_idle_clause_of_ModeAndTickCounterChangeOnlySo : ready.pending = [] ∧ ∃ t, step ready = .next t := by
  refine ⟨rfl, ?_⟩
  show ∃ t, State.passEdge { ready.quiet with idles := 1 } (idleEdge 0) = .next t
  cases idleEdge 0 <;> exact ⟨_, rfl⟩

theorem meets_SelectPeriodBeginsAndEnds :
    ready.pins.csnLow = false ∧ ready.power = .running ∧ (starting 0).power ≠ .running ∧
      (asked ready).pins.csnLow = true ∧ (asked ready).link.resetPending = false ∧ (asked heldWrite).trafficSound ∧
      { asked heldWrite with link := { Link.idle with phase := .trailing, resetPending := true } }.link.resetPending = true :=
  ⟨by decide, by decide, by decide, by decide, by decide, sound_of_decided (by decide +kernel), by decide⟩

/-- The link in REQUEST after these bytes. -/
def received (bytes : List Byte) : Option Link := Link.receiveMany bytes { Link.idle with phase := .request }

theorem meets_RequestBytesBuildTheFrame :
    (received []).any (fun l => decide (l.phase = .request ∧ l.position = 0)) = true ∧
      (received [1]).any (fun l => decide (l.phase = .request ∧ l.position = 1)) = true ∧
      (received [1, 40]).any (fun l => decide (2 ≤ l.position ∧ l.position < l.length.toNat + 2)) = true := by
  decide +kernel

/-- The part with these bytes of a frame received. -/
def partway (bytes : List Byte) : State := { asked ready with link := (received bytes).getD Link.idle }

theorem sound_partway : ∀ bytes ∈ ([[], [1, 0], [0x70, 0]] : List (List Byte)),
    (partway bytes).linkSound ∧ (partway bytes).frameSound := by
  unfold State.linkSound State.frameSound; decide +kernel

theorem meets_clocked_bits :
    (partway []).link.phase ≠ .idle ∧ (partway []).link.bits = [] ∧
      (partway [1, 0]).link.position = (partway [1, 0]).link.length.toNat + 2 ∧ (0xC2 : Byte) = (partway [1, 0]).link.crc ∧
      (partway [1, 0]).link.code ∈ requestCodes ∧ (partway [2]).link.position = 1 ∧
      (partway [0x70, 0]).link.code ∉ requestCodes := by decide +kernel

theorem meets_ResponseIsSentWhole :
    (Link.idle.checked 0x01 [] (.ok identity)).phase = .turnaround ∧ (Reply.ok identity).payload.length ≤ 193 := by
  decide +kernel

theorem meets_BadFrameChangesNothing :
    (received [1]).any (fun l => decide (l.phase = .request ∧ l.position = 1 ∧ 40 < (41 : Byte).toNat)) = true ∧
      (received [1, 0]).any (fun l => decide (2 ≤ l.position ∧ l.position = l.length.toNat + 2 ∧ (0 : Byte) ≠ l.crc)) =
        true := by decide +kernel

theorem meets_FrameChecksComeFirst_and_RefusedRequest :
    (asked ready).link.awaits 0x70 [1] = true ∧ 0x70 ∉ requestCodes ∧ (asked ready).link.awaits 0x11 [] = true ∧
      requestParts (.armEntry []) = some (0x11, 1, []) ∧ (asked ready).link.awaits 0x11 [48] = true ∧
      requestParts (.armEntry [48]) = some (0x11, 1, [48]) ∧ entryRequest 0x11 = true := by decide +kernel

theorem meets_Identify_Reports_and_ReadEvents :
    (asked ready).link.awaits 0x01 [] = true ∧ (asked ready).link.awaits 0x02 [] = true ∧
      (asked ready).link.awaits 0x15 [47] = true ∧ (asked fetchingSeven).trafficSound ∧
      (asked fetchingSeven).link.awaits 0x15 [7] = true ∧ ((asked fetchingSeven).entry 7).state = .fetching ∧
      (asked ready).link.awaits 0x30 [1] = true ∧ (asked ready).link.awaits 0x30 [8] = true ∧
      (asked ready).link.awaits 0x30 [0] = true ∧ (asked ready).link.awaits 0x30 [9] = true :=
  ⟨by decide +kernel, by decide +kernel, by decide +kernel, sound_of_decided (by decide +kernel), by decide +kernel,
    by decide +kernel, by decide +kernel, by decide +kernel, by decide +kernel, by decide +kernel⟩

/-- The bytes are read as this descriptor. -/
def reads (bytes : List Byte) (d : Descriptor) : Bool :=
  match checkDescriptor bytes with
  | .ok x => decide (x = d)
  | .error _ => false

theorem meets_LoadEntryChecksThenLoads_and_RoundTrip :
    (asked busyTable).link.awaits 0x10 (47 :: condition.bytes) = true ∧ condition.bytes.length = 24 ∧
      reads condition.bytes condition = true ∧ reads deadline.bytes deadline = true ∧ reads total.bytes total = true ∧
      reads rate.bytes rate = true ∧ { condition with window := 1 }.bytes.getD 22 0 = 1 ∧ condition.valid = true ∧ rate.valid = true ∧
      ((asked busyTable).entry 47).state = .empty ∧ ((asked busyTable).entry 4).state = .loaded ∧
      ((asked busyTable).entry 0).state = .armed ∧ (asked busyTable).entries.length = 48 ∧
      (asked busyTable).link.awaits 0x10 (0 :: condition.bytes) = true ∧
      (asked busyTable).link.awaits 0x10 (4 :: { condition with window := 1 }.bytes) = true ∧
      { condition with window := 1 }.bytes.length = 24 := by decide +kernel

theorem meets_ArmAndResyncBeginFetches :
    (asked busyTable).trafficSound ∧ (asked busyTable).link.awaits 0x11 [4] = true ∧
      ((asked busyTable).entry 4).state = .loaded ∧ ((asked busyTable).entry 4).shadowBearing = true ∧
      ((asked busyTable).entry 5).state = .loaded ∧ ((asked busyTable).entry 5).shadowBearing = false ∧
      (asked busyTable).port.list.length < 8 ∧ ((asked busyTable).entry 0).shadowValid = true ∧
      ((asked busyTable).entry 0).state ≠ .loaded ∧ ((asked busyTable).entry 1).shadowBearing = false ∧
      (asked fullList).trafficSound ∧ (asked fullList).port.list.length = 8 ∧
      ((asked fullList).entry 9).state = .loaded ∧ ((asked fullList).entry 10).shadowValid = true ∧
      (asked suspended).trafficSound ∧ (asked suspended).mode = .suspended ∧ ((asked suspended).entry 7).state = .loaded ∧
      (asked busyTable).link.awaits 0x14 [0] = true :=
  ⟨sound_of_decided (by decide +kernel), by decide +kernel, by decide +kernel, by decide +kernel, by decide +kernel,
    by decide +kernel, by decide, by decide +kernel, by decide +kernel, by decide +kernel,
    sound_of_decided (by decide +kernel), by decide +kernel, by decide +kernel, by decide +kernel,
    sound_of_decided (by decide +kernel), by decide, by decide +kernel, by decide +kernel⟩

theorem meets_DisarmAndClearGiveUpTheFetch :
    (asked heldWrite).trafficSound ∧ (asked heldWrite).link.awaits 0x12 [7] = true ∧
      (asked heldWrite).link.awaits 0x13 [7] = true ∧ ((asked heldWrite).entry 7).state = .fetching ∧
      (asked heldWrite).link.awaits 0x12 [47] = true ∧ ((asked heldWrite).entry 47).state = .empty :=
  ⟨sound_of_decided (by decide +kernel), by decide +kernel, by decide +kernel, by decide +kernel, by decide +kernel,
    by decide +kernel⟩

theorem meets_SuspendAndResumeChangeTheMode :
    (asked heldWrite).trafficSound ∧ (asked heldWrite).mode = .monitoring ∧ (asked heldWrite).link.awaits 0x20 [] = true ∧
      (asked suspended).trafficSound ∧ (asked suspended).mode = .suspended ∧ (asked suspended).link.awaits 0x21 [] = true ∧
      (asked suspended).link.awaits 0x20 [] = true ∧ (asked heldWrite).link.awaits 0x21 [] = true :=
  ⟨sound_of_decided (by decide +kernel), by decide, by decide +kernel, sound_of_decided (by decide +kernel), by decide,
    by decide +kernel, by decide +kernel, by decide +kernel⟩

theorem meets_EventIsAppended_Evicts_and_IsDiscarded :
    (queued 31 3).queue.records.length < 32 ∧ (queued 32 3).queue.records.length = 32 ∧
      (queued 32 3).queue.records.any (fun r => decide ((hostReset 0).cls < r.cls)) = true ∧
      (queued 32 0).queue.records.all (fun r => decide (r.cls ≤ (hostReset 0).cls)) = true ∧
      ready.queue.records = [] := by decide +kernel

/-- The fields of a descriptor that pass their checks of Table 1-2, by number; a stale window fails the twelfth alone. -/
theorem meets_field_checks :
    (List.range 14).all (fieldPasses condition.bytes) = true ∧
      (List.range 12).all (fieldPasses { condition with window := 1 }.bytes) = true ∧
      fieldPasses { condition with window := 1 }.bytes 12 = false := by decide +kernel

/-- With L = 31 the number 0020h is one ahead, 001Fh is L and 000Fh lies behind. -/
theorem meets_AckEventsRemovesARunFromTheHead :
    (asked (queued 32 3)).link.awaits 0x31 [0x00, 0x20] = true ∧ (asked (queued 32 3)).link.awaits 0x31 [0x00, 0x1F] = true ∧
      (queued 32 3).queue.lastAssigned = 31 ∧ ((0x0020 : Seq) - 31).toNat = 1 ∧ ((0x801E : Seq) - 31).toNat = 32767 ∧
      ((0x801F : Seq) - 31).toNat = 32768 ∧ (queued 32 3).queueSound ∧ (queued 32 3).alertSound := by
  unfold State.queueSound State.alertSound ClassState.sound; decide +kernel

theorem meets_LinesFollowTheQueue :
    (queued 31 3).queueSound ∧ (queued 31 3).alertSound ∧ (strobing true 0).queueSound ∧ (strobing true 0).alertSound ∧
      (strobing false 0).queueSound ∧ (strobing false 0).alertSound := by
  unfold State.queueSound State.alertSound ClassState.sound; decide +kernel

theorem meets_SetClassFollowsTheTable :
    (asked (strobing true 2)).link.awaits 0x40 [3, 1, 1, 15] = true ∧
      (asked (strobing true 2)).link.awaits 0x40 [4, 0, 0, 1] = true ∧
      (asked (strobing true 2)).link.awaits 0x40 [2, 2, 0, 1] = true ∧
      (asked (strobing true 2)).link.awaits 0x40 [2, 1, 2, 1] = true ∧
      (asked (strobing true 2)).link.awaits 0x40 [2, 1, 1, 0] = true ∧
      (asked (strobing true 2)).link.awaits 0x40 [2, 1, 1, 16] = true ∧
      (asked (strobing true 2)).link.awaits 0x40 [2, 0, 1, 1] = true ∧
      (asked (strobing true 2)).link.awaits 0x40 [2, 1, 0, 1] = true ∧
      ((asked (strobing true 2)).alerts.get 2).maskOpen = true ∧ ((asked (strobing true 2)).alerts.get 3).mode = .level := by
  decide +kernel

theorem meets_SettingsRequestsChangeTheirSettings :
    (asked ready).link.awaits 0x41 [15] = true ∧ (asked ready).link.awaits 0x41 [16] = true ∧ (asked ready).alertSound ∧
      (asked ready).link.awaits 0x42 [0, 1, 2, 3] = true ∧ (asked ready).link.awaits 0x42 [4, 0, 0, 0] = true ∧
      (asked ready).link.awaits 0x42 [0, 4, 0, 0] = true ∧ (asked ready).link.awaits 0x42 [0, 0, 4, 0] = true ∧
      (asked ready).link.awaits 0x42 [0, 0, 0, 4] = true ∧ (asked ready).link.awaits 0x60 [] = true := by
  unfold State.alertSound ClassState.sound; decide +kernel

end Sys2Proof.Tests
end

section
/-! A COUNT entry in TOTAL mode on qualifying beats (R39, R40). One beat is either a decrement or the exhausting beat; along a
run of beats of one kind the entry stays one that they count on, and from a reload the remaining count is read off the number
of beats passed modulo the reload. -/

namespace Sys2Proof.Machine

/-! ## Qualifying beats (R39) -/

theorem qualifies_iff (d : Descriptor) (e : Entry) (op : BeatOp) :
    qualifies d e op = true ↔ d.changeOnly = false ∨ ∃ data strobes, op = .write data strobes ∧
      merged e.rt.shadow data strobes &&& d.mask ≠ e.rt.shadow &&& d.mask := by
  cases hc : d.changeOnly with
  | false => simp [qualifies, hc]
  | true => cases op <;> simp [qualifies, hc, Descriptor.differs]

/-- Whether a beat qualifies depends on the runtime fields through the shadow alone. -/
theorem qualifies_congr {e f : Entry} (h : e.rt.shadow = f.rt.shadow) (d : Descriptor) (op : BeatOp) :
    qualifies d e op = qualifies d f op := by
  simp [qualifies, h]

/-- The beat counts on the entry: an acting COUNT entry in TOTAL mode for which it qualifies. -/
structure Entry.CountsTotal (e : Entry) (d : Descriptor) (addr : Addr) (op : BeatOp) : Prop where
  desc : e.desc = some d
  kind : d.kind = .count
  mode : d.countMode = .total
  armed : e.state = .armed
  covers : e.covers addr op.dir = true
  qualifying : qualifies d e op = true

section OneBeat
variable {e : Entry} {d : Descriptor} {addr : Addr} {op : BeatOp}

theorem Entry.CountsTotal.judge_eq (h : e.CountsTotal d addr op) : e.judge addr op = judgeTotal d e := by
  simp [Entry.judge, judgeCount, h.desc, h.kind, h.mode, h.armed, h.covers, h.qualifying]

/-- A beat that counts leaves an entry on which the same beat counts again: a verdict keeps all that this asks for. -/
theorem Entry.CountsTotal.judged (h : e.CountsTotal d addr op) : (e.judge addr op).entry.CountsTotal d addr op := by
  obtain ⟨hstate, hdesc, hshadow⟩ := e.judge_keeps addr op
  exact
    { h with
      desc := hdesc.trans h.desc
      armed := hstate.trans h.armed
      covers := (Entry.covers_congr hstate hdesc addr op.dir).trans h.covers
      qualifying := (qualifies_congr hshadow d op).trans h.qualifying }

/-! ## One beat (R40) -/

theorem reload_pos (h : d.reload ≠ 0) : 0 < d.reload.toNat :=
  Nat.pos_of_ne_zero fun h0 => h (BitVec.eq_of_toNat_eq h0)

theorem judgeTotal_of_one_lt (h : 1 < e.rt.remaining) :
    judgeTotal d e = .none { e with rt := { e.rt with remaining := e.rt.remaining - 1 } } :=
  if_pos h

theorem judgeTotal_of_one (h : e.rt.remaining = 1) :
    judgeTotal d e =
      ⟨{ e with rt := { e.rt with remaining := d.reload.toNat } }, some .countExhausted, some d.action⟩ :=
  if_neg (by omega)

/-- The remaining count is never left at zero. -/
theorem one_le_remaining_of_judgeTotal (hreload : d.reload ≠ 0) : 1 ≤ (judgeTotal d e).entry.rt.remaining := by
  unfold judgeTotal
  split
  · show 1 ≤ e.rt.remaining - 1
    omega
  · exact reload_pos hreload

end OneBeat

/-! ## A run of beats -/

/-- The entry after this many beats of one address and operation. -/
def Entry.afterBeats (addr : Addr) (op : BeatOp) (k : Nat) (e : Entry) : Entry :=
  (fun x : Entry => (x.judge addr op).entry)^[k] e

@[simp] theorem Entry.afterBeats_zero (addr : Addr) (op : BeatOp) (e : Entry) : e.afterBeats addr op 0 = e := rfl

theorem Entry.afterBeats_succ (addr : Addr) (op : BeatOp) (k : Nat) (e : Entry) :
    e.afterBeats addr op (k + 1) = ((e.afterBeats addr op k).judge addr op).entry :=
  Function.iterate_succ_apply' _ k e

section Run
variable {e : Entry} {d : Descriptor} {addr : Addr} {op : BeatOp}

theorem Entry.CountsTotal.afterBeats (h : e.CountsTotal d addr op) (k : Nat) :
    (e.afterBeats addr op k).CountsTotal d addr op := by
  induction k with
  | zero => exact h
  | succ k ih =>
    rw [Entry.afterBeats_succ]
    exact ih.judged

theorem Entry.CountsTotal.one_le_remaining_afterBeats (h : e.CountsTotal d addr op) (hreload : d.reload ≠ 0)
    (hrem : 1 ≤ e.rt.remaining) (k : Nat) : 1 ≤ (e.afterBeats addr op k).rt.remaining := by
  cases k with
  | zero => exact hrem
  | succ k =>
    rw [Entry.afterBeats_succ, (h.afterBeats k).judge_eq]
    exact one_le_remaining_of_judgeTotal hreload

/-- The successor modulo `r` goes up by one or, from the last value, back to zero. -/
theorem succ_mod_cases {r : Nat} (hr : 0 < r) (k : Nat) :
    k % r + 1 < r ∧ (k + 1) % r = k % r + 1 ∨ k % r + 1 = r ∧ (k + 1) % r = 0 := by
  rcases Nat.lt_or_eq_of_le (Nat.mod_lt k hr) with hlt | heq
  · exact .inl ⟨hlt, by rw [← Nat.mod_add_mod, Nat.mod_eq_of_lt hlt]⟩
  · exact .inr ⟨heq, by rw [← Nat.mod_add_mod, show k % r + 1 = r from heq, Nat.mod_self]⟩

/-- The closed form of the count: `k` beats after a reload, `k` modulo the reload of them are taken off it. -/
theorem Entry.CountsTotal.remaining_afterBeats (h : e.CountsTotal d addr op) (hr : 0 < d.reload.toNat)
    (hfull : e.rt.remaining = d.reload.toNat) (k : Nat) :
    (e.afterBeats addr op k).rt.remaining = d.reload.toNat - k % d.reload.toNat := by
  induction k with
  | zero => simpa using hfull
  | succ k ih =>
    rw [Entry.afterBeats_succ, (h.afterBeats k).judge_eq]
    rcases succ_mod_cases hr k with ⟨hlt, hmod⟩ | ⟨hlast, hmod⟩
    · rw [judgeTotal_of_one_lt (by omega), hmod]
      show (e.afterBeats addr op k).rt.remaining - 1 = _
      omega
    · rw [judgeTotal_of_one (by omega), hmod]
      rfl

theorem Entry.CountsTotal.trips_every_reload (h : e.CountsTotal d addr op) (hr : 0 < d.reload.toNat)
    (hfull : e.rt.remaining = d.reload.toNat) (k : Nat) :
    if (k + 1) % d.reload.toNat = 0 then
      ((e.afterBeats addr op k).judge addr op).trip = some .countExhausted ∧
        ((e.afterBeats addr op k).judge addr op).action = some d.action
    else
      ((e.afterBeats addr op k).judge addr op).trip = none ∧
        ((e.afterBeats addr op k).judge addr op).action = none := by
  have hrem := h.remaining_afterBeats hr hfull k
  rw [(h.afterBeats k).judge_eq]
  rcases succ_mod_cases hr k with ⟨hlt, hmod⟩ | ⟨hlast, hmod⟩
  · rw [if_neg (by omega), judgeTotal_of_one_lt (by omega)]
    exact ⟨rfl, rfl⟩
  · rw [if_pos hmod, judgeTotal_of_one (by omega)]
    exact ⟨rfl, rfl⟩

end Run

/-- Settles O18: a single beat by the two equations of `judgeTotal`, the run of beats by the closed form of the remaining
count. -/
theorem totalTripsEveryReloadBeats : Obligations.TotalTripsEveryReloadBeats := by
  intro e d addr op hdesc hkind hmode harmed hcovers hqual hreload hrem after
  have h : e.CountsTotal d addr op := ⟨hdesc, hkind, hmode, harmed, hcovers, (qualifies_iff d e op).2 hqual⟩
  refine ⟨fun hlt => ?_, fun hone => ?_, h.one_le_remaining_afterBeats hreload hrem,
    h.trips_every_reload (reload_pos hreload)⟩
  · rw [h.judge_eq, judgeTotal_of_one_lt hlt]
    rfl
  · rw [h.judge_eq, judgeTotal_of_one hone]

end Sys2Proof.Machine
end

section
/-! The gap count of the REFCLK monitor at an IRC period (R100). A source period moves the divider and the tick counter
alone of the time base, so the monitor's part of an IRC period is the same under either source: one more in the gap count, and
the expiry at 64. -/

namespace Sys2Proof.Machine

/-! ## What a source period leaves of the time base (R97, R98) -/

@[simp] theorem State.tickOnce_time (s : State) (order : TickOrder) :
    (s.tickOnce order).time = { s.time with dividerCount := 0, tickCounter := s.time.tickCounter + 1 } := by
  cases order <;> simp [State.tickOnce, State.countTick]

/-- A source period moves the divider count and the tick counter and nothing else of the time base. -/
theorem State.sourcePeriod_time_frame (s : State) (order : TickOrder) :
    (s.sourcePeriod order).time =
      { s.time with
        dividerCount := (s.sourcePeriod order).time.dividerCount
        tickCounter := (s.sourcePeriod order).time.tickCounter } := by
  unfold State.sourcePeriod
  split
  · rw [State.tickOnce_time]
  · rfl

@[simp] theorem State.sourcePeriod_gap (s : State) (order : TickOrder) :
    (s.sourcePeriod order).time.gap = s.time.gap := by rw [s.sourcePeriod_time_frame]
@[simp] theorem State.sourcePeriod_run (s : State) (order : TickOrder) :
    (s.sourcePeriod order).time.run = s.time.run := by rw [s.sourcePeriod_time_frame]
@[simp] theorem State.sourcePeriod_monitor (s : State) (order : TickOrder) :
    (s.sourcePeriod order).time.monitor = s.time.monitor := by rw [s.sourcePeriod_time_frame]
@[simp] theorem State.sourcePeriod_source (s : State) (order : TickOrder) :
    (s.sourcePeriod order).time.source = s.time.source := by rw [s.sourcePeriod_time_frame]

/-! ## The expiry of the gap count (R100, R102) -/

/-- The monitor at the expiry, whether or not the source falls back with it. -/
theorem State.gapExpires_monitor (s : State) :
    s.gapExpires.time.gap = 64 ∧ s.gapExpires.time.run = 0 ∧ s.gapExpires.time.monitor = .lost := by
  unfold State.gapExpires
  split <;> simp [State.fallBack]

/-- While IRC is the source the expiry moves the monitor alone. -/
theorem State.gapExpires_of_irc {s : State} (h : s.time.source = .irc) :
    s.gapExpires = { s with time := { s.time with gap := 64, run := 0, monitor := .lost } } := by
  simp [State.gapExpires, h]

/-! ## The monitor's part of an IRC period (R100) -/

/-- One more period in the gap count: it grows below 63, expires at 63, and stands at 64. -/
def State.countGap (s : State) : State :=
  if s.time.gap < 63 then { s with time := { s.time with gap := s.time.gap + 1 } }
  else if s.time.gap = 63 then s.gapExpires
  else s

theorem State.ircPeriod_of_irc {s : State} (h : s.time.source = .irc) (order : TickOrder) :
    s.ircPeriod order = (s.sourcePeriod order).countGap := by
  simp only [State.ircPeriod, State.countGap, if_pos h]

theorem State.ircPeriod_of_refclk {s : State} (h : s.time.source = .refclk) (order : TickOrder) :
    s.ircPeriod order = s.countGap := by
  simp [State.ircPeriod, State.countGap, h]

section CountGap
variable {s : State}

theorem State.countGap_of_lt (h : s.time.gap < 63) :
    s.countGap = { s with time := { s.time with gap := s.time.gap + 1 } } := if_pos h

theorem State.countGap_of_last (h : s.time.gap = 63) : s.countGap = s.gapExpires := by
  rw [State.countGap, if_neg (by omega), if_pos h]

theorem State.countGap_of_full (h : s.time.gap = 64) : s.countGap = s := by
  rw [State.countGap, if_neg (by omega), if_neg (by omega)]

end CountGap

/-- What one more period in the gap count does to the monitor's three fields, `t` before and `u` after. -/
structure TimeBase.GapCounted (t u : TimeBase) : Prop where
  gap : u.gap = min (t.gap + 1) 64
  below : t.gap < 63 → u.monitor = t.monitor ∧ u.run = t.run
  last : t.gap = 63 → u.monitor = .lost ∧ u.run = 0
  full : t.gap = 64 → u.monitor = t.monitor ∧ u.run = t.run

theorem State.countGap_counts {s : State} (h : s.time.gap ≤ 64) : s.time.GapCounted s.countGap.time := by
  obtain hlt | hlast | hfull : s.time.gap < 63 ∨ s.time.gap = 63 ∨ s.time.gap = 64 := by omega
  · rw [State.countGap_of_lt hlt]
    exact ⟨(Nat.min_eq_left (show s.time.gap + 1 ≤ 64 by omega)).symm, fun _ => ⟨rfl, rfl⟩, by omega, by omega⟩
  · obtain ⟨hgap, hrun, hmonitor⟩ := s.gapExpires_monitor
    rw [State.countGap_of_last hlast]
    exact ⟨by omega, by omega, fun _ => ⟨hmonitor, hrun⟩, by omega⟩
  · rw [State.countGap_of_full hfull]
    exact ⟨by omega, by omega, by omega, fun _ => ⟨rfl, rfl⟩⟩

/-- While IRC is the source LOST raises nothing: queue and alert unit stay, at the expiry too. -/
theorem State.countGap_raises_nothing {s : State} (h : s.time.source = .irc) :
    s.countGap.queue = s.queue ∧ s.countGap.alerts = s.alerts := by
  unfold State.countGap
  rw [State.gapExpires_of_irc h]
  split_ifs <;> exact ⟨rfl, rfl⟩

theorem State.ircPeriod_counts {s : State} (h : s.time.gap ≤ 64) (order : TickOrder) :
    s.time.GapCounted (s.ircPeriod order).time := by
  cases hs : s.time.source with
  | refclk =>
    rw [State.ircPeriod_of_refclk hs]
    exact State.countGap_counts h
  | irc =>
    have hc := State.countGap_counts (s := s.sourcePeriod order) (by simpa using h)
    rw [State.ircPeriod_of_irc hs]
    exact ⟨by simpa using hc.gap, by simpa using hc.below, by simpa using hc.last, by simpa using hc.full⟩

/-- Settles O33: the monitor's fields by the three cases of the gap count, the events by the expiry under IRC. -/
theorem gapCountGrowsToSixtyFour : Obligations.GapCountGrowsToSixtyFour := by
  intro s order ⟨_, _, _, hgap, _, _⟩ t
  have h : s.time.GapCounted t.time := State.ircPeriod_counts hgap order
  refine ⟨h.gap, h.below, h.last, h.full, fun hs => ?_⟩
  rw [show t = (s.sourcePeriod order).countGap from State.ircPeriod_of_irc hs order]
  exact State.countGap_raises_nothing (by simpa using hs)

end Sys2Proof.Machine
end

section
/-! SET TIMEBASE (R103 to R105, R178): one equation for each outcome of its checks, in their order, and the frame that
answers it. -/

namespace Sys2Proof.Machine

/-! ## The bytes of the request (R103, Table 9-1) -/

theorem sourceOfByte_eq_none {f : Byte} (h : 1 < f.toNat) : sourceOfByte f = none := by
  have h0 : f ≠ 0 := by rintro rfl; simp at h
  have h1 : f ≠ 1 := by rintro rfl; simp at h
  rw [sourceOfByte, if_neg h0, if_neg h1]

theorem byte_eq_zero_or_one {f : Byte} (h : f.toNat ≤ 1) : f = 0 ∨ f = 1 := by
  bv_omega

theorem bytes2_append (hi lo : Byte) : bytes2 (hi ++ lo) = [hi, lo] := by
  rw [bytes2, BitVec.extractLsb'_append_eq_of_le (by decide), BitVec.extractLsb'_append_eq_of_add_le (by decide)]
  simp

/-! ## The outcomes of the checks (R103, R104, R105) -/

section Checks
variable {s : State} {code : Byte} {source : Source} {divisor : BitVec 16}

theorem State.selectTimebase_of_no_source (h : sourceOfByte code = none) :
    s.selectTimebase code divisor = (s, .badParam 1) := by
  simp [State.selectTimebase, h]

theorem State.selectTimebase_of_divisor (h : sourceOfByte code = some source)
    (hd : divisorAllowed source divisor = false) : s.selectTimebase code divisor = (s, .badParam 2) := by
  simp [State.selectTimebase, h, hd]

theorem State.selectTimebase_of_lost (h : sourceOfByte code = some .refclk) (hd : divisorAllowed .refclk divisor = true)
    (hm : s.time.monitor = .lost) : s.selectTimebase code divisor = (s, .noClock .lost) := by
  simp [State.selectTimebase, h, hd, hm]

theorem State.selectTimebase_of_allowed (h : sourceOfByte code = some source)
    (hd : divisorAllowed source divisor = true) (hm : source = .refclk → s.time.monitor = .running) :
    s.selectTimebase code divisor =
      ({ s with time := s.time.select source divisor }, .ok (source.code :: bytes2 divisor)) := by
  have hclock : ¬(source = .refclk ∧ s.time.monitor = .lost) := fun ⟨hs, hl⟩ => by simp [hm hs] at hl
  simp [State.selectTimebase, h, hd, hclock, TimeBase.select]

end Checks

/-- A SET TIMEBASE frame is answered with what its checks and its performance give. -/
theorem exec_setTimebase {s u : State} {f hi lo : Byte} {r : Reply} (h : s.link.awaits 0x50 [f, hi, lo] = true)
    (hr : s.quiet.selectTimebase f (hi ++ lo) = (u, r)) :
    exec (.setTimebase [f, hi, lo]) s = .next (u.respond 0x50 [f, hi, lo] r) := by
  have hs := State.serve_eq (s := s.quiet) (f := State.selectTimebase f (hi ++ lo)) h (rfl : [f, hi, lo].length = 3)
  rw [hr] at hs
  exact congrArg Host.Outcome.next hs

/-- Settles O36: each clause is the outcome of the checks that its premises single out, answered by the link. -/
theorem setTimebaseChecksThenSelects : Obligations.SetTimebaseChecksThenSelects := by
  intro s f hi lo h divisor answer c
  refine ⟨fun hf => ?_, fun hf hd => ?_, ?_, ?_, ?_⟩
  · exact exec_setTimebase h (State.selectTimebase_of_no_source (sourceOfByte_eq_none hf))
  · rcases byte_eq_zero_or_one hf with rfl | rfl
    · have hirc : divisorAllowed .irc divisor = false := by simpa [divisorAllowed] using hd
      exact exec_setTimebase h (State.selectTimebase_of_divisor rfl hirc)
    · have hrefclk : divisorAllowed .refclk divisor = false := by simp [divisorAllowed]; omega
      exact exec_setTimebase h (State.selectTimebase_of_divisor rfl hrefclk)
  · rintro rfl hd hm
    exact exec_setTimebase h (State.selectTimebase_of_lost rfl (decide_eq_true hd) hm)
  · rintro rfl hd hm
    rw [exec_setTimebase h (State.selectTimebase_of_allowed rfl (decide_eq_true hd) fun _ => hm), bytes2_append]
    rfl
  · rintro rfl hd
    rw [exec_setTimebase h (State.selectTimebase_of_allowed rfl (decide_eq_true hd) nofun), bytes2_append]
    rfl

end Sys2Proof.Machine
end

section
/-! An event taken while the queue has room (R125). The bound of 32 records rests on the three outcomes of taking an event:
an append lengthens a queue that has room, an eviction takes away as many records as it brings, a discard touches none. -/

namespace Sys2Proof.Machine

/-- R126, R127: a full queue keeps its length, whether the event evicts a record or is discarded. -/
theorem EventQueue.takeEvent_length_of_full {q : EventQueue} (ev : Event) (h : queueCapacity ≤ q.records.length) :
    (q.takeEvent ev).1.records.length = q.records.length := by
  by_cases hc : ev.cls < greatestClass q.records
  · obtain ⟨hlen, -⟩ := removeLastOf_spec (exists_of_lt_greatestClass hc)
    simpa [EventQueue.takeEvent_evict h hc] using hlen
  · simp [EventQueue.takeEvent_discard h hc]

/-- R125: room in the queue, seen from the whole part. -/
theorem State.raiseOne_records_of_room {s : State} (ev : Event) (h : s.queue.records.length < queueCapacity) :
    (s.raiseOne ev).queue.records = s.queue.records ++ [⟨s.queue.next, ev⟩] := by
  rw [State.raiseOne_queue, EventQueue.takeEvent_append ev h]

/-- R125: taking an event keeps the queue within its capacity. -/
theorem State.raiseOne_length_le {s : State} (ev : Event) (h : s.queue.records.length ≤ queueCapacity) :
    (s.raiseOne ev).queue.records.length ≤ queueCapacity := by
  rcases Nat.lt_or_ge s.queue.records.length queueCapacity with hroom | hfull
  · rw [State.raiseOne_records_of_room ev hroom, List.length_append]
    exact hroom
  · rw [State.raiseOne_queue, EventQueue.takeEvent_length_of_full ev hfull]
    exact h

/-- Settles O53: with room the records are the old ones and the new one behind them, from which count, head and tail are read;
the bound is the one that taking any event keeps. -/
theorem eventIsAppendedWhileThereIsRoom : Obligations.EventIsAppendedWhileThereIsRoom := by
  refine fun s ev => ⟨fun hroom => ?_, State.raiseOne_length_le ev⟩
  have happend := State.raiseOne_records_of_room ev hroom
  refine ⟨happend, ?_, fun hempty => ?_⟩
  · rw [happend, List.length_append, List.length_singleton]
  · rw [happend, hempty]
    exact ⟨rfl, rfl⟩

end Sys2Proof.Machine
end

section
/-! SET CLASS (R148, R149, R176): the rows of Table 7-2 for one class, one equation for each outcome of the checks of its
fields, and the frame that answers it. -/

namespace Sys2Proof.Machine

/-! ## The bytes of the request (Table 9-1) -/

theorem classOfByte_eq_none {f : Byte} (h : 3 < f.toNat) : classOfByte f = none := by
  have h0 : f ≠ 0 := by bv_omega
  have h1 : f ≠ 1 := by bv_omega
  have h2 : f ≠ 2 := by bv_omega
  have h3 : f ≠ 3 := by bv_omega
  rw [classOfByte, if_neg h0, if_neg h1, if_neg h2, if_neg h3]

theorem classByte_eq {f : Byte} {c : ClassNo} (h : f.toNat = c.val) : classByte c = f := by
  rw [classByte, byteOf, ← h, BitVec.ofNat_toNat, BitVec.setWidth_eq]

/-- A class is read back from its byte. -/
theorem classOfByte_classByte : ∀ c : ClassNo, classOfByte (classByte c) = some c := by decide

theorem classOfByte_eq_some {f : Byte} {c : ClassNo} (h : f.toNat = c.val) : classOfByte f = some c := by
  rw [← classByte_eq h, classOfByte_classByte]

theorem exists_classOfByte {f : Byte} (h : f.toNat ≤ 3) : ∃ c, classOfByte f = some c :=
  ⟨⟨f.toNat, Nat.lt_succ_of_le h⟩, classOfByte_eq_some rfl⟩

theorem flagOfByte_eq_none {f : Byte} (h : 1 < f.toNat) : flagOfByte f = none := by
  have h0 : f ≠ 0 := by bv_omega
  have h1 : f ≠ 1 := by bv_omega
  rw [flagOfByte, if_neg h0, if_neg h1]

theorem flagOfByte_eq_some {f : Byte} (h : f.toNat ≤ 1) : flagOfByte f = some (decide (f = 1)) := by
  rcases byte_eq_zero_or_one h with rfl | rfl <;> rfl

theorem flagByte_decide {f : Byte} (h : f.toNat ≤ 1) : flagByte (decide (f = 1)) = f := by
  rcases byte_eq_zero_or_one h with rfl | rfl <;> rfl

/-- LEVEL and STROBE have the codes of the flag that names them. -/
theorem lineModeOf_code (strobe : Bool) : (lineModeOf strobe).code = flagByte strobe := by
  cases strobe <;> rfl

/-! ## One class after SET CLASS (R149, Table 7-2) -/

section Table
variable (k : ClassState) (maskOpen : Bool) (mode : LineMode) (n : Nat)

@[simp] theorem ClassState.configured_maskOpen : (k.configured maskOpen mode n).maskOpen = maskOpen := rfl
@[simp] theorem ClassState.configured_mode : (k.configured maskOpen mode n).mode = mode := rfl
@[simp] theorem ClassState.configured_strobeLength : (k.configured maskOpen mode n).strobeLength = n := rfl
@[simp] theorem ClassState.configured_missed : (k.configured maskOpen mode n).missed = k.missed := rfl
@[simp] theorem ClassState.configured_count : (k.configured maskOpen mode n).count = k.count := rfl

/-- With the mask CLOSED no pulse runs and the line is released, in either mode. -/
theorem ClassState.configured_closed :
    (k.configured false mode n).pulse = 0 ∧ (k.configured false mode n).line = false := by
  cases mode <;> exact ⟨rfl, rfl⟩

/-- In LEVEL mode with the mask OPEN no pulse runs and the line shows what is pending. -/
theorem ClassState.configured_level :
    (k.configured true .level n).pulse = 0 ∧ (k.configured true .level n).line = k.pending :=
  ⟨rfl, rfl⟩

/-- In STROBE mode the line shows whether a pulse runs. -/
theorem ClassState.configured_strobe_line :
    (k.configured maskOpen .strobe n).line = decide (0 < (k.configured maskOpen .strobe n).pulse) := rfl

variable {k}

/-- Where mask OPEN and mode STROBE are kept, the pulse runs on and the line shows it. -/
theorem ClassState.configured_strobe_kept (hmask : k.maskOpen = true) (hmode : k.mode = .strobe) :
    (k.configured true .strobe n).pulse = k.pulse ∧ (k.configured true .strobe n).line = decide (0 < k.pulse) := by
  have hpulse : (k.configured true .strobe n).pulse = k.pulse := by simp [ClassState.configured, hmask, hmode]
  exact ⟨hpulse, by rw [ClassState.configured_strobe_line, hpulse]⟩

/-- Where mask OPEN or mode STROBE is new, no pulse runs and the line is released. -/
theorem ClassState.configured_strobe_new (h : k.maskOpen = false ∨ k.mode = .level) :
    (k.configured true .strobe n).pulse = 0 ∧ (k.configured true .strobe n).line = false := by
  have hpulse : (k.configured true .strobe n).pulse = 0 := by
    rcases h with h | h <;> simp [ClassState.configured, h]
  exact ⟨hpulse, by rw [ClassState.configured_strobe_line, hpulse]; rfl⟩

end Table

/-! ## The outcomes of the checks (R148, R176) -/

section Checks
variable {s : State} {f1 f2 f3 f4 : Byte} {c : ClassNo} {maskOpen strobe : Bool}

theorem State.configureClass_of_no_class (h1 : classOfByte f1 = none) :
    s.configureClass [f1, f2, f3, f4] = (s, .badParam 1) := by
  simp [State.configureClass, h1]

theorem State.configureClass_of_no_mask (h1 : classOfByte f1 = some c) (h2 : flagOfByte f2 = none) :
    s.configureClass [f1, f2, f3, f4] = (s, .badParam 2) := by
  simp [State.configureClass, h1, h2]

theorem State.configureClass_of_no_mode (h1 : classOfByte f1 = some c) (h2 : flagOfByte f2 = some maskOpen)
    (h3 : flagOfByte f3 = none) : s.configureClass [f1, f2, f3, f4] = (s, .badParam 3) := by
  simp [State.configureClass, h1, h2, h3]

theorem State.configureClass_of_length (h1 : classOfByte f1 = some c) (h2 : flagOfByte f2 = some maskOpen)
    (h3 : flagOfByte f3 = some strobe) (h4 : ¬(1 ≤ f4.toNat ∧ f4.toNat ≤ 15)) :
    s.configureClass [f1, f2, f3, f4] = (s, .badParam 4) := by
  simp only [State.configureClass, List.getD_cons_zero, List.getD_cons_succ, h1, h2, h3, if_neg h4]

/-- The accepted request replaces the state of its class and answers the class's items. -/
theorem State.configureClass_of_allowed (h1 : classOfByte f1 = some c) (h2 : flagOfByte f2 = some maskOpen)
    (h3 : flagOfByte f3 = some strobe) (h4 : 1 ≤ f4.toNat ∧ f4.toNat ≤ 15) :
    s.configureClass [f1, f2, f3, f4] =
      let k := (s.alerts.get c).configured maskOpen (lineModeOf strobe) f4.toNat
      ({ s with alerts := s.alerts.set c k },
        .ok [classByte c, flagByte maskOpen, flagByte strobe, f4, flagByte k.missed, flagByte k.line]) := by
  simp only [State.configureClass, List.getD_cons_zero, List.getD_cons_succ, h1, h2, h3, if_pos h4]
  simp [State.classBlock, lineModeOf_code, byteOf]

end Checks

/-- A SET CLASS frame is answered with what its checks and its performance give. -/
theorem exec_setClass {s u : State} {f1 f2 f3 f4 : Byte} {r : Reply} (h : s.link.awaits 0x40 [f1, f2, f3, f4] = true)
    (hr : s.quiet.configureClass [f1, f2, f3, f4] = (u, r)) :
    exec (.setClass [f1, f2, f3, f4]) s = .next (u.respond 0x40 [f1, f2, f3, f4] r) := by
  have hserve := State.serve_eq (s := s.quiet) (f := State.configureClass [f1, f2, f3, f4]) h
    (rfl : [f1, f2, f3, f4].length = 4)
  rw [hr] at hserve
  exact congrArg Host.Outcome.next hserve

/-- Settles O58: the outcome of each check that fails, and for the accepted request the rows of Table 7-2 read off the one
class that it replaces. -/
theorem setClassFollowsTheTable : Obligations.SetClassFollowsTheTable := by
  intro s f1 f2 f3 f4 h refused
  refine ⟨fun hf1 => ?_, fun hf1 hf2 => ?_, fun hf1 hf2 hf3 => ?_, fun hf1 hf2 hf3 hf4 => ?_,
    fun c hc hf2 hf3 hlo hhi => ?_⟩
  · exact exec_setClass h (State.configureClass_of_no_class (classOfByte_eq_none hf1))
  · obtain ⟨c, hc⟩ := exists_classOfByte hf1
    exact exec_setClass h (State.configureClass_of_no_mask hc (flagOfByte_eq_none hf2))
  · obtain ⟨c, hc⟩ := exists_classOfByte hf1
    exact exec_setClass h (State.configureClass_of_no_mode hc (flagOfByte_eq_some hf2) (flagOfByte_eq_none hf3))
  · obtain ⟨c, hc⟩ := exists_classOfByte hf1
    exact exec_setClass h
      (State.configureClass_of_length hc (flagOfByte_eq_some hf2) (flagOfByte_eq_some hf3) (by omega))
  · have hperform := State.configureClass_of_allowed (s := s.quiet) (classOfByte_eq_some hc) (flagOfByte_eq_some hf2)
      (flagOfByte_eq_some hf3) ⟨hlo, hhi⟩
    rw [classByte_eq hc, flagByte_decide hf2, flagByte_decide hf3] at hperform
    refine ⟨_, exec_setClass h hperform, ?_⟩
    simp only [State.respond_alerts, State.quiet_alerts, AlertUnit.get_set, if_true]
    refine ⟨rfl, fun o ho => if_neg ho.symm, rfl, by simp [lineModeOf], rfl, rfl, rfl, ?_, ?_, ?_, ?_⟩
    · rintro rfl
      exact ClassState.configured_closed _ _ _
    · rintro rfl rfl
      exact ClassState.configured_level _ _
    · rintro rfl rfl hmask hmode
      exact ClassState.configured_strobe_kept _ hmask hmode
    · rintro rfl rfl hnew
      exact ClassState.configured_strobe_new _ hnew

end Sys2Proof.Machine
end

section
/-! The CRC of the link (R158): one byte more is eight shifts more. -/

namespace Sys2Proof.Machine

/-- The bit that a shift of the CRC moves out is bit 7. -/
theorem crcShift_eq : crcShift = fun v : Byte => if v.getLsbD 7 then (v <<< 1) ^^^ 0x07 else v <<< 1 := by
  funext v
  rw [crcShift, BitVec.msb_eq_getLsbD_last]

theorem crcByte_eq_iterate (c b : Byte) : crcByte c b = crcShift^[8] (c ^^^ b) := rfl

theorem crcOf_append_singleton (bs : List Byte) (b : Byte) : crcOf (bs ++ [b]) = crcByte (crcOf bs) b := by
  simp [crcOf]

/-- Settles O38: the CRC of a longer row by the shifts of its last byte; the frames carry it by their definitions. -/
theorem crcIsThatOfTheLink : Obligations.CrcIsThatOfTheLink := by
  refine ⟨⟨rfl, fun bs b => ?_, by decide +kernel, by decide +kernel⟩, fun _ => rfl, fun _ _ _ _ => rfl⟩
  rw [crcOf_append_singleton, crcByte_eq_iterate, crcShift_eq]

end Sys2Proof.Machine
end

section
/-! IDENTIFY (R165). -/

namespace Sys2Proof.Machine

/-- Settles O45: the frame passes its checks, and its performance changes nothing. -/
theorem identifyAnswersThePart : Obligations.IdentifyAnswersThePart := by
  intro s h
  have hserve := State.serve_eq (s := s.quiet) (n := 0) (f := fun u => (u, .ok identity)) h rfl
  exact congrArg Host.Outcome.next hserve

end Sys2Proof.Machine
end

section
/-! LOAD ENTRY (R4, R11, R167). The check of a descriptor walks its fields in order; the walk is followed once, beside the
fields' own checks of Table 1-2, and says of a failure that it is the first, and of a descriptor that it is valid and spells
the bytes it was read from. -/

namespace Sys2Proof.Machine

/-! ## Bytes and numbers (00_scope.md 0.5) -/

theorem toNat_append_eq {v w : Nat} (a : BitVec v) (b : BitVec w) : (a ++ b).toNat = a.toNat * 2 ^ w + b.toNat := by
  rw [BitVec.toNat_append, ← Nat.shiftLeft_add_eq_or_of_lt b.isLt, Nat.shiftLeft_eq]

theorem join2_toNat (a b : Byte) : (join2 a b).toNat = a.toNat * 256 + b.toNat := toNat_append_eq a b

theorem join3_toNat (a b c : Byte) : (join3 a b c).toNat = (a.toNat * 256 + b.toNat) * 256 + c.toNat := by
  simp only [join3, toNat_append_eq, Nat.reducePow]

theorem join4_toNat (a b c d : Byte) :
    (join4 a b c d).toNat = ((a.toNat * 256 + b.toNat) * 256 + c.toNat) * 256 + d.toNat := by
  simp only [join4, toNat_append_eq, Nat.reducePow]

theorem join2_eq_zero_iff (a b : Byte) : join2 a b = 0 ↔ a.toNat * 256 + b.toNat = 0 := by
  rw [← BitVec.toNat_inj, join2_toNat]
  rfl

/-- A field of four bytes is zero where all its bytes are. -/
theorem join4_eq_zero_iff (a b c d : Byte) : join4 a b c d = 0 ↔ a.toNat + b.toNat + c.toNat + d.toNat = 0 := by
  rw [← BitVec.toNat_inj, join4_toNat]
  change _ = 0 ↔ _
  omega

theorem extract_byte_eq {w k : Nat} {v : BitVec w} {b : Byte} (h : v.toNat / 2 ^ k % 256 = b.toNat) :
    v.extractLsb' k 8 = b := by
  apply BitVec.eq_of_toNat_eq
  rw [BitVec.extractLsb'_toNat, Nat.shiftRight_eq_div_pow]
  exact h

theorem bytes3_join3 (a b c : Byte) : bytes3 (join3 a b c) = [a, b, c] := by
  rw [bytes3, extract_byte_eq (b := a), extract_byte_eq (b := b), extract_byte_eq (b := c)] <;> rw [join3_toNat] <;> omega

theorem bytes4_join4 (a b c d : Byte) : bytes4 (join4 a b c d) = [a, b, c, d] := by
  rw [bytes4, extract_byte_eq (b := a), extract_byte_eq (b := b), extract_byte_eq (b := c), extract_byte_eq (b := d)] <;>
    rw [join4_toNat] <;> omega

theorem high_nibble_toNat (b : Byte) : (b.extractLsb' 4 4).toNat = b.toNat / 16 := by
  rw [BitVec.extractLsb'_toNat, Nat.shiftRight_eq_div_pow]
  omega

theorem low_nibble_toNat (b : Byte) : (b.extractLsb' 0 4).toNat = b.toNat % 16 := by
  rw [BitVec.extractLsb'_toNat, Nat.shiftRight_zero]

theorem nibbles_append (b : Byte) : b.extractLsb' 4 4 ++ b.extractLsb' 0 4 = b := by
  apply BitVec.eq_of_toNat_eq
  rw [toNat_append_eq, high_nibble_toNat, low_nibble_toNat]
  omega

/-! ## The enumerated fields (Table 9-1): a value is read from its own code alone -/

theorem kindOfByte_eq_some {b : Byte} {k : Kind} (h : kindOfByte b = some k) : b = k.code := by
  grind [kindOfByte, Kind.code]

theorem countModeOfNibble_eq_some {n : BitVec 4} {m : CountMode} (h : countModeOfNibble n = some m) : n = m.code := by
  grind [countModeOfNibble, CountMode.code]

theorem flagOfNibble_eq_some {n : BitVec 4} {f : Bool} (h : flagOfNibble n = some f) : n = flagNibble f := by
  grind [flagOfNibble, flagNibble]

theorem senseOfByte_eq_some {b : Byte} {s : Sense} (h : senseOfByte b = some s) : b = s.code := by
  grind [senseOfByte, Sense.code]

theorem actionOfByte_eq_some {b : Byte} {a : Action} (h : actionOfByte b = some a) : b = a.code := by
  grind [actionOfByte, Action.code]

theorem eq_classByte {b : Byte} {c : ClassNo} (h : classOfByte b = some c) : b = classByte c := by
  unfold classOfByte at h
  split_ifs at h with h0 h1 h2 h3 <;> cases h <;> assumption

theorem eq_flagByte {b : Byte} {f : Bool} (h : flagOfByte b = some f) : b = flagByte f := by
  grind [flagOfByte, flagByte]

/-- A chain of codes, told apart by their numbers. -/
theorem any_ite_code {w : Nat} {α : Type} (b c : BitVec w) (v : α) (rest : Option α) (p : α → Bool) :
    (if b = c then some v else rest).any p = true ↔
      b.toNat = c.toNat ∧ p v = true ∨ b.toNat ≠ c.toNat ∧ rest.any p = true := by
  by_cases h : b = c <;> simp [h, BitVec.toNat_inj]

/-! ## The fields (Table 1-2): each field's own check is the condition that the walk tests -/

section Fields
variable {bytes : List Byte} {kind : Kind} {countMode : CountMode} {changeOnly : Bool} {sense : Sense}

theorem kind_toNat (h : kindOfByte (bytes.getD 0 0) = some kind) : (bytes.getD 0 0).toNat = kind.code.toNat := by
  rw [kindOfByte_eq_some h]

theorem countMode_toNat (h : countModeOfNibble ((bytes.getD 1 0).extractLsb' 4 4) = some countMode) :
    (bytes.getD 1 0).toNat / 16 = countMode.code.toNat := by
  rw [← high_nibble_toNat, countModeOfNibble_eq_some h]

theorem changeOnly_toNat (h : flagOfNibble ((bytes.getD 1 0).extractLsb' 0 4) = some changeOnly) :
    (bytes.getD 1 0).toNat % 16 = (flagNibble changeOnly).toNat := by
  rw [← low_nibble_toNat, flagOfNibble_eq_some h]

theorem sense_toNat (h : senseOfByte (bytes.getD 2 0) = some sense) : (bytes.getD 2 0).toNat = sense.code.toNat := by
  rw [senseOfByte_eq_some h]

theorem fieldPasses_kind : fieldPasses bytes 1 = (kindOfByte (bytes.getD 0 0)).isSome := by
  rw [Bool.eq_iff_iff, ← Option.any_true, kindOfByte]
  simp only [fieldPasses, any_ite_code, decide_eq_true_eq, Option.any_none]
  simp
  omega

theorem fieldPasses_cls : fieldPasses bytes 6 = (classOfByte (bytes.getD 4 0)).isSome := by
  rw [Bool.eq_iff_iff, ← Option.any_true, classOfByte]
  simp only [fieldPasses, any_ite_code, decide_eq_true_eq, Option.any_none]
  simp
  omega

section Kind
variable (hkind : kindOfByte (bytes.getD 0 0) = some kind)
include hkind

theorem fieldPasses_countMode : fieldPasses bytes 2 =
    (countModeOfNibble ((bytes.getD 1 0).extractLsb' 4 4)).any
      fun m => decide (kind = .count) || decide (m = .total) := by
  rw [Bool.eq_iff_iff, countModeOfNibble]
  simp only [fieldPasses, any_ite_code, kind_toNat hkind, high_nibble_toNat, decide_eq_true_eq, Option.any_none]
  cases kind <;> simp [Kind.code]
  omega

theorem fieldPasses_changeOnly : fieldPasses bytes 3 =
    (flagOfNibble ((bytes.getD 1 0).extractLsb' 0 4)).any fun c => decide (kind = .count) || !c := by
  rw [Bool.eq_iff_iff, flagOfNibble]
  simp only [fieldPasses, any_ite_code, kind_toNat hkind, low_nibble_toNat, decide_eq_true_eq, Option.any_none]
  cases kind <;> simp [Kind.code]
  omega

theorem fieldPasses_action (hsense : senseOfByte (bytes.getD 2 0) = some sense) :
    fieldPasses bytes 5 = (actionOfByte (bytes.getD 3 0)).any (actionAllowed kind sense) := by
  rw [Bool.eq_iff_iff, actionOfByte]
  simp only [fieldPasses, any_ite_code, kind_toNat hkind, sense_toNat hsense, decide_eq_true_eq, Option.any_none]
  cases kind <;> cases sense <;> simp [Kind.code, Sense.code, actionAllowed] <;> omega

theorem fieldPasses_reference : fieldPasses bytes 10 =
    (decide (kind = .condition) ||
      decide (join4 (bytes.getD 15 0) (bytes.getD 16 0) (bytes.getD 17 0) (bytes.getD 18 0) = 0)) := by
  simp only [fieldPasses, kind_toNat hkind, join4_eq_zero_iff]
  cases kind <;> simp [Kind.code]

theorem fieldPasses_reload : fieldPasses bytes 11 =
    usedNonzero (decide (kind ≠ .condition)) (join2 (bytes.getD 19 0) (bytes.getD 20 0)) := by
  rw [Bool.eq_iff_iff]
  simp only [fieldPasses, kind_toNat hkind, usedNonzero, ne_eq, join2_eq_zero_iff]
  cases kind <;> simp [Kind.code] <;> omega

theorem fieldPasses_window (hmode : countModeOfNibble ((bytes.getD 1 0).extractLsb' 4 4) = some countMode) :
    fieldPasses bytes 12 =
      usedNonzero (decide (kind = .count) && decide (countMode = .rate)) (join2 (bytes.getD 21 0) (bytes.getD 22 0)) := by
  rw [Bool.eq_iff_iff]
  simp only [fieldPasses, kind_toNat hkind, countMode_toNat hmode, usedNonzero, ne_eq, join2_eq_zero_iff]
  cases kind <;> cases countMode <;> simp [Kind.code, CountMode.code]
  omega

section ChangeOnly
variable (hchange : flagOfNibble ((bytes.getD 1 0).extractLsb' 0 4) = some changeOnly)
include hchange

theorem fieldPasses_sense :
    fieldPasses bytes 4 = (senseOfByte (bytes.getD 2 0)).any (senseAllowed kind changeOnly) := by
  rw [Bool.eq_iff_iff, senseOfByte]
  simp only [fieldPasses, any_ite_code, kind_toNat hkind, changeOnly_toNat hchange, decide_eq_true_eq, Option.any_none]
  cases kind <;> cases changeOnly <;> simp [Kind.code, flagNibble, senseAllowed] <;> omega

theorem fieldPasses_limit :
    let base := join3 (bytes.getD 5 0) (bytes.getD 6 0) (bytes.getD 7 0)
    let limit := join3 (bytes.getD 8 0) (bytes.getD 9 0) (bytes.getD 10 0)
    fieldPasses bytes 8 =
      (decide (base ≤ limit) && (!(decide (kind = .condition) || changeOnly) || decide (limit = base))) := by
  simp only [fieldPasses, kind_toNat hkind, changeOnly_toNat hchange, BitVec.le_def, ← BitVec.toNat_inj, join3_toNat]
  cases kind <;> cases changeOnly <;> simp [Kind.code, flagNibble]

theorem fieldPasses_mask : fieldPasses bytes 9 =
    usedNonzero (decide (kind = .condition) || (decide (kind = .count) && changeOnly))
      (join4 (bytes.getD 11 0) (bytes.getD 12 0) (bytes.getD 13 0) (bytes.getD 14 0)) := by
  simp only [fieldPasses, kind_toNat hkind, changeOnly_toNat hchange, usedNonzero, ne_eq, join4_eq_zero_iff]
  cases kind <;> cases changeOnly <;> simp [Kind.code, flagNibble]

theorem fieldPasses_readBack : fieldPasses bytes 13 =
    (flagOfByte (bytes.getD 23 0)).any
      fun r => (decide (kind = .condition) || (decide (kind = .count) && changeOnly)) || !r := by
  rw [Bool.eq_iff_iff, flagOfByte]
  simp only [fieldPasses, any_ite_code, kind_toNat hkind, changeOnly_toNat hchange, decide_eq_true_eq, Option.any_none]
  cases kind <;> cases changeOnly <;> simp [Kind.code, flagNibble] <;> omega

end ChangeOnly
end Kind
end Fields

/-- R6, in the terms of the check. -/
theorem Descriptor.shadowBearing_eq (d : Descriptor) :
    d.shadowBearing = (decide (d.kind = .condition) || (decide (d.kind = .count) && d.changeOnly)) := by
  cases h : d.kind <;> simp [Descriptor.shadowBearing, h]

/-! ## The walk over the fields (R4) -/

/-- The fields before the n-th pass their checks. -/
def PassesBefore (bytes : List Byte) (n : Nat) : Prop := ∀ m, 1 ≤ m → m < n → fieldPasses bytes m = true

/-- The n-th is the first field that fails its check. -/
structure FirstFailing (bytes : List Byte) (n : Nat) : Prop where
  pos : 1 ≤ n
  le : n ≤ 13
  before : PassesBefore bytes n
  fails : fieldPasses bytes n = false

/-- The descriptor is valid and spells these bytes. -/
structure ReadFrom (bytes : List Byte) (d : Descriptor) : Prop where
  valid : d.valid = true
  bytes : d.bytes = (List.range 24).map fun i => bytes.getD i 0

/-- The outcome is the one that the fields' own checks give: the first field that fails, or all thirteen pass. -/
def Judged (bytes : List Byte) : Except Nat Descriptor → Prop
  | .error n => FirstFailing bytes n
  | .ok d => PassesBefore bytes 14 ∧ ReadFrom bytes d

/-- From the n-th field on, with those before it passed, the check goes right. -/
def JudgedFrom (bytes : List Byte) (n : Nat) (check : Except Nat Descriptor) : Prop :=
  PassesBefore bytes n → Judged bytes check

theorem PassesBefore.succ {bytes : List Byte} {n : Nat} (h : PassesBefore bytes n) (hn : fieldPasses bytes n = true) :
    PassesBefore bytes (n + 1) := fun m h1 hm => by
  rcases Nat.lt_succ_iff_lt_or_eq.mp hm with hlt | rfl
  · exact h m h1 hlt
  · exact hn

theorem FirstFailing.unique {bytes : List Byte} {m n : Nat} (hm : FirstFailing bytes m) (hn : FirstFailing bytes n) :
    m = n := by
  rcases Nat.lt_trichotomy m n with h | h | h
  · exact absurd (hn.before m hm.pos h) (by simp [hm.fails])
  · exact h
  · exact absurd (hm.before n hn.pos h) (by simp [hn.fails])

namespace JudgedFrom
variable {bytes : List Byte} {n : Nat}

theorem pass {rest : Except Nat Descriptor} (hn : fieldPasses bytes n = true) (h : JudgedFrom bytes (n + 1) rest) :
    JudgedFrom bytes n rest := fun hbefore => h (hbefore.succ hn)

theorem fail (hn : 1 ≤ n ∧ n ≤ 13) (hfails : fieldPasses bytes n = false) :
    JudgedFrom bytes n (.error n) := fun hbefore => ⟨hn.1, hn.2, hbefore, hfails⟩

theorem done {d : Descriptor} (h : ReadFrom bytes d) : JudgedFrom bytes 14 (.ok d) := fun hbefore => ⟨hbefore, h⟩

/-- A field that is checked by a condition. -/
theorem check {p : Bool} {rest : Except Nat Descriptor} (hn : 1 ≤ n ∧ n ≤ 13) (hfield : fieldPasses bytes n = p)
    (h : p = true → JudgedFrom bytes (n + 1) rest) : JudgedFrom bytes n (checkField n p >>= fun _ => rest) := by
  cases p with
  | false => exact fail hn hfield
  | true => exact pass hfield (h rfl)

/-- A field that is read by its code and then checked by a condition. -/
theorem readCheck {α : Type} {code : Option α} {p : α → Bool} {rest : α → Except Nat Descriptor} (hn : 1 ≤ n ∧ n ≤ 13)
    (hfield : fieldPasses bytes n = code.any p)
    (h : ∀ v, code = some v → p v = true → JudgedFrom bytes (n + 1) (rest v)) :
    JudgedFrom bytes n (readField n code >>= fun v => checkField n (p v) >>= fun _ => rest v) := by
  cases code with
  | none => exact fail hn hfield
  | some v => exact check hn hfield (h v rfl)

/-- A field that is read by its code alone. -/
theorem read {α : Type} {code : Option α} {rest : α → Except Nat Descriptor} (hn : 1 ≤ n ∧ n ≤ 13)
    (hfield : fieldPasses bytes n = code.isSome) (h : ∀ v, code = some v → JudgedFrom bytes (n + 1) (rest v)) :
    JudgedFrom bytes n (readField n code >>= rest) := by
  cases code with
  | none => exact fail hn hfield
  | some v => exact pass hfield (h v rfl)

end JudgedFrom

/-- R4: one rule for each field in descriptor order; what has been read is the descriptor, and has passed all that validity
asks. -/
theorem checkDescriptor_judged (bytes : List Byte) : JudgedFrom bytes 1 (checkDescriptor bytes) := by
  refine .read (by decide) fieldPasses_kind fun kind hkind => ?_
  refine .readCheck (by decide) (fieldPasses_countMode hkind) fun countMode hmode hmode' => ?_
  refine .readCheck (by decide) (fieldPasses_changeOnly hkind) fun changeOnly hchange hchange' => ?_
  refine .readCheck (by decide) (fieldPasses_sense hkind hchange) fun sense hsense hsense' => ?_
  refine .readCheck (by decide) (fieldPasses_action hkind hsense) fun action haction haction' => ?_
  refine .read (by decide) fieldPasses_cls fun cls hcls => .pass rfl ?_
  refine .check (by decide) (fieldPasses_limit hkind hchange) fun hlimit => ?_
  refine .check (by decide) (fieldPasses_mask hkind hchange) fun hmask => ?_
  refine .check (by decide) (fieldPasses_reference hkind) fun hreference => ?_
  refine .check (by decide) (fieldPasses_reload hkind) fun hreload => ?_
  refine .check (by decide) (fieldPasses_window hkind hmode) fun hwindow => ?_
  refine .readCheck (by decide) (fieldPasses_readBack hkind hchange) fun readBack hread hread' => ?_
  refine .done ⟨?_, ?_⟩
  · simp only [Descriptor.valid, Descriptor.shadowBearing_eq, Descriptor.isRate, hmode', hchange', hsense', haction', hlimit,
      hmask, hreference, hreload, hwindow, hread', Bool.and_true]
  · simp only [Descriptor.bytes, bytes3_join3, bytes4_join4, join2, bytes2_append, ← kindOfByte_eq_some hkind,
      ← countModeOfNibble_eq_some hmode, ← flagOfNibble_eq_some hchange, ← senseOfByte_eq_some hsense,
      ← actionOfByte_eq_some haction, ← eq_classByte hcls, ← eq_flagByte hread, nibbles_append]
    rfl

/-! ## What the check of a descriptor answers -/

section Check
variable {bytes : List Byte} {n : Nat} {d : Descriptor}

theorem checkDescriptor_spec (bytes : List Byte) : Judged bytes (checkDescriptor bytes) :=
  checkDescriptor_judged bytes fun _ h1 hm => absurd h1 (Nat.not_le.mpr hm)

theorem firstFailing_of_error (h : checkDescriptor bytes = .error n) : FirstFailing bytes n := by
  have hspec := checkDescriptor_spec bytes
  rw [h] at hspec
  exact hspec

theorem readFrom_of_ok (h : checkDescriptor bytes = .ok d) : PassesBefore bytes 14 ∧ ReadFrom bytes d := by
  have hspec := checkDescriptor_spec bytes
  rw [h] at hspec
  exact hspec

theorem checkDescriptor_eq_error (h : FirstFailing bytes n) : checkDescriptor bytes = .error n := by
  cases hc : checkDescriptor bytes with
  | error m => rw [(firstFailing_of_error hc).unique h]
  | ok d => exact absurd ((readFrom_of_ok hc).1 n h.pos (Nat.lt_succ_of_le h.le)) (by simp [h.fails])

theorem exists_checkDescriptor_eq_ok (h : PassesBefore bytes 14) : ∃ d, checkDescriptor bytes = .ok d := by
  cases hc : checkDescriptor bytes with
  | error m =>
    have hfirst := firstFailing_of_error hc
    exact absurd (h m hfirst.pos (Nat.lt_succ_of_le hfirst.le)) (by simp [hfirst.fails])
  | ok d => exact ⟨d, rfl⟩

theorem ReadFrom.bytes_eq (h : ReadFrom bytes d) (hlen : bytes.length = 24) : d.bytes = bytes := by
  rw [h.bytes]
  exact List.ext_getElem (by simp [hlen]) fun i _ hi => by simp [hi]

end Check

/-! ## LOAD ENTRY (R11, R167) -/

section Load
variable {s : State} {bytes : List Byte} {i n : Nat} {d : Descriptor}

theorem State.load_of_state (h1 : (s.entry i).state ≠ .empty) (h2 : (s.entry i).state ≠ .loaded) :
    s.load bytes i = (s, .badState (s.entry i).state) := by
  simp [State.load, h1, h2]

theorem State.load_of_error (h : (s.entry i).state = .empty ∨ (s.entry i).state = .loaded)
    (hd : checkDescriptor bytes = .error n) : s.load bytes i = (s, .badParam n) := by
  rw [State.load, if_pos h, hd]

theorem State.load_of_ok (h : (s.entry i).state = .empty ∨ (s.entry i).state = .loaded)
    (hd : checkDescriptor bytes = .ok d) (hi : i < s.entries.length) :
    s.load bytes i = (s.setEntry i ⟨.loaded, some d, d.startValues⟩, .ok [1]) := by
  rw [State.load, if_pos h, hd]
  simp [State.entryReply, State.entry, hi, EntryState.code]

end Load

/-- A LOAD ENTRY frame is answered with what its checks and its performance give. -/
theorem exec_loadEntry {s u : State} {b : Byte} {bytes : List Byte} {r : Reply}
    (h : s.link.awaits 0x10 (b :: bytes) = true) (hlen : bytes.length = 24) (hb : b.toNat < 48)
    (hr : s.quiet.load bytes b.toNat = (u, r)) :
    exec (.loadEntry (b :: bytes)) s = .next (u.respond 0x10 (b :: bytes) r) := by
  have hserve := State.serveEntry_eq (s := s.quiet) (f := State.load bytes) h (n := 25)
    (by rw [List.length_cons, hlen]) hb
  rw [List.getD_cons_zero, hr] at hserve
  exact congrArg Host.Outcome.next hserve

/-- Settles O48: the state test and the check of the descriptor each have one outcome, which the link answers. -/
theorem loadEntryChecksThenLoads : Obligations.LoadEntryChecksThenLoads := by
  intro s b bytes h hlen hb e answer c
  have hfails (hstate : e.state = .empty ∨ e.state = .loaded) {n : Nat} (hn : checkDescriptor bytes = .error n) :
      exec c s = answer s (.badParam n) :=
    exec_loadEntry h hlen hb (State.load_of_error (s := s.quiet) hstate hn)
  refine ⟨fun h1 h2 => ?_, fun hstate => ⟨fun n hn => ?_, fun n h1 h13 hbefore hn => ?_, fun hall => ?_, fun d hd hs => ?_⟩⟩
  · exact exec_loadEntry h hlen hb (State.load_of_state (s := s.quiet) h1 h2)
  · obtain ⟨hpos, hle, hbefore, hfield⟩ := firstFailing_of_error hn
    exact ⟨hpos, hle, hbefore, hfield, hfails hstate hn⟩
  · exact hfails hstate (checkDescriptor_eq_error ⟨h1, h13, hbefore, hn⟩)
  · obtain ⟨d, hd⟩ := exists_checkDescriptor_eq_ok fun m h1 hm => hall m h1 (Nat.le_of_lt_succ hm)
    exact ⟨d, hd, (readFrom_of_ok hd).2.bytes_eq hlen⟩
  · have hi : b.toNat < s.quiet.entries.length := by simpa [hs] using hb
    exact ⟨(readFrom_of_ok hd).2.valid, exec_loadEntry h hlen hb (State.load_of_ok hstate hd hi)⟩

end Sys2Proof.Machine
end

section
/-! What a command does, said once. A request performs its work once its frame has passed its checks; what it performs, and then
what any command brings about, is one of the cases below, and what a step keeps is proved over these cases. -/

namespace Sys2Proof.Machine

/-! ## The requests of the link (R157 to R160) -/

/-- R160, check 3: the work of an entry request on the entry that its payload names. -/
def onEntry (payload : List Byte) (perform : Nat → State → State × Reply) (s : State) : State × Reply :=
  if (payload.getD 0 0).toNat < entryCount then perform (payload.getD 0 0).toNat s else (s, .badIndex)

/-- What a request does once the checks of its frame are passed; a command that is no request does nothing. -/
def performance : Instr → State → State × Reply
  | .identify _ => fun s => (s, .ok identity)
  | .readStatus _ => fun s => (s, .ok s.statusBlock)
  | .loadEntry p => onEntry p (State.load (p.drop 1))
  | .armEntry p => onEntry p State.arm
  | .disarmEntry p => onEntry p State.disarm
  | .clearEntry p => onEntry p State.clear
  | .resyncEntry p => onEntry p State.resync
  | .queryEntry p => onEntry p State.query
  | .suspend _ => State.suspendPart
  | .resume _ => State.resumePart
  | .readEvents p => State.read (p.getD 0 0)
  | .ackEvents p => State.ack (join2 (p.getD 0 0) (p.getD 1 0))
  | .setClass p => State.configureClass p
  | .clearMissed p => State.clearMarks (p.getD 0 0)
  | .setPartClasses p => State.assignClasses p
  | .setTimebase p => State.selectTimebase (p.getD 0 0) (join2 (p.getD 1 0) (p.getD 2 0))
  | .resetPart _ => fun s => ({ s with link := { s.link with resetPending := true } }, .ok [])
  | _ => fun s => (s, .badCommand)

/-- Every request is its performance, served. -/
theorem exec_request {c : Instr} {code : Byte} {n : Nat} {p : List Byte} (h : requestParts c = some (code, n, p))
    (s : State) : exec c s = .next (s.quiet.serve code n p (performance c)) := by
  cases c <;> cases h <;> rfl

/-- A request whose frame passes is answered with what it performs. -/
theorem exec_request_eq {c : Instr} {code : Byte} {n : Nat} {p : List Byte} {s u : State} {r : Reply}
    (h : requestParts c = some (code, n, p)) (ha : s.link.awaits code p = true) (hn : p.length = n)
    (hr : performance c s.quiet = (u, r)) : exec c s = .next (u.respond code p r) := by
  rw [exec_request h, State.serve_eq (s := s.quiet) ha hn, hr]

/-- What the performance of a request can come to: a report or a refusal that changes nothing, or one of the changes, each
answered OK. -/
inductive Performed (s : State) : Instr → State → Reply → Prop where
  | report (c : Instr) (r : Reply) : Performed s c s r
  | loaded (p : List Byte) (i : Nat) (d : Descriptor) (hi : i < entryCount)
      (hstate : (s.entry i).state = .empty ∨ (s.entry i).state = .loaded) (hd : checkDescriptor (p.drop 1) = .ok d)
      (reply : List Byte) : Performed s (.loadEntry p) (s.setEntry i ⟨.loaded, some d, d.startValues⟩) (.ok reply)
  | armed (p : List Byte) (i : Nat) (hi : i < entryCount) (hstate : (s.entry i).state = .loaded)
      (hs : (s.entry i).shadowBearing = false) (reply : List Byte) :
      Performed s (.armEntry p) (s.setEntry i ((s.entry i).restarted .armed)).settle (.ok reply)
  | armedPending (p : List Byte) (i : Nat) (hi : i < entryCount) (hstate : (s.entry i).state = .loaded)
      (hs : (s.entry i).shadowBearing = true) (hm : s.mode = .suspended) (reply : List Byte) :
      Performed s (.armEntry p) (s.setEntry i ((s.entry i).restarted .pending)).settle (.ok reply)
  | armedFetching (p : List Byte) (i : Nat) (hi : i < entryCount) (hstate : (s.entry i).state = .loaded)
      (hs : (s.entry i).shadowBearing = true) (hm : s.mode = .monitoring) (reply : List Byte) :
      Performed s (.armEntry p) (s.beginFetch i).settle (.ok reply)
  | disarmed (p : List Byte) (i : Nat) (hi : i < entryCount) (hw : (s.entry i).state.watching = true)
      (reply : List Byte) :
      Performed s (.disarmEntry p) ((s.giveUpFetch i).setEntry i ((s.entry i).restarted .loaded)).settle (.ok reply)
  | clearedWatching (p : List Byte) (i : Nat) (hi : i < entryCount) (hw : (s.entry i).state.watching = true)
      (reply : List Byte) :
      Performed s (.clearEntry p) ((s.giveUpFetch i).setEntry i Entry.empty).settle (.ok reply)
  | cleared (p : List Byte) (i : Nat) (hi : i < entryCount) (hw : (s.entry i).state.watching = false)
      (reply : List Byte) : Performed s (.clearEntry p) (s.setEntry i Entry.empty) (.ok reply)
  | resynced (p : List Byte) (i : Nat) (hi : i < entryCount) (hv : (s.entry i).shadowValid = true) (reply : List Byte) :
      Performed s (.resyncEntry p) (s.beginFetch i).settle (.ok reply)
  | suspended (p : List Byte) (hm : s.mode = .monitoring) (reply : List Byte) :
      Performed s (.suspend p)
        { s with
          mode := .suspended
          entries := mapFrom (fun _ e => e.suspended) 0 s.entries
          port := { s.port with list := suspendedList s.port.list } }.settle (.ok reply)
  | resumed (p : List Byte) (hm : s.mode = .suspended) (reply : List Byte) :
      Performed s (.resume p) { s with mode := .monitoring }.settle (.ok reply)
  | acknowledged (p : List Byte) (number : Seq) (hn : s.queue.ahead number = false) (reply : List Byte) :
      Performed s (.ackEvents p) (s.acknowledge number) (.ok reply)
  | configured (p : List Byte) (c : ClassNo) (maskOpen : Bool) (mode : LineMode) (n : Nat) (h1 : 1 ≤ n) (h15 : n ≤ 15)
      (reply : List Byte) :
      Performed s (.setClass p) { s with alerts := s.alerts.set c ((s.alerts.get c).configured maskOpen mode n) } (.ok reply)
  | marksCleared (p : List Byte) (set : BitVec 4) (reply : List Byte) :
      Performed s (.clearMissed p) { s with alerts := s.alerts.clearMissed set } (.ok reply)
  | assigned (p : List Byte) (classes : PartClasses) (reply : List Byte) :
      Performed s (.setPartClasses p) { s with queue := { s.queue with classes } } (.ok reply)
  | selected (p : List Byte) (source : Source) (divisor : BitVec 16) (hd : divisorAllowed source divisor = true)
      (hm : source = .refclk → s.time.monitor = .running) (reply : List Byte) :
      Performed s (.setTimebase p) { s with time := s.time.select source divisor } (.ok reply)
  | resetAsked (p : List Byte) (reply : List Byte) :
      Performed s (.resetPart p) { s with link := { s.link with resetPending := true } } (.ok reply)

/-- An entry request comes to what its work on the entry named comes to; an index above the table is a refusal. -/
theorem Performed.onEntry {c : Instr} {p : List Byte} {perform : Nat → State → State × Reply} {s : State}
    (h : ∀ i, i < entryCount → Performed s c (perform i s).1 (perform i s).2) :
    Performed s c (onEntry p perform s).1 (onEntry p perform s).2 := by
  unfold Sys2Proof.Machine.onEntry
  split
  · next hi => exact h _ hi
  · exact .report _ _

theorem performed_load {s : State} (p : List Byte) (i : Nat) (hi : i < entryCount) :
    Performed s (.loadEntry p) (s.load (p.drop 1) i).1 (s.load (p.drop 1) i).2 := by
  unfold State.load
  split
  · next hstate =>
    split
    · exact .report _ _
    · next d hd => exact .loaded p i d hi hstate hd _
  · exact .report _ _

theorem performed_arm {s : State} (p : List Byte) (i : Nat) (hi : i < entryCount) :
    Performed s (.armEntry p) (s.arm i).1 (s.arm i).2 := by
  unfold State.arm
  split
  · next hstate =>
    cases hs : (s.entry i).shadowBearing with
    | false => simpa using .armed p i hi hstate hs _
    | true =>
      cases hm : s.mode with
      | monitoring => simpa using .armedFetching p i hi hstate hs hm _
      | suspended => simpa using .armedPending p i hi hstate hs hm _
  · exact .report _ _

theorem performed_disarm {s : State} (p : List Byte) (i : Nat) (hi : i < entryCount) :
    Performed s (.disarmEntry p) (s.disarm i).1 (s.disarm i).2 := by
  unfold State.disarm
  split
  · next hw => exact .disarmed p i hi hw _
  · exact .report _ _

theorem performed_clear {s : State} (p : List Byte) (i : Nat) (hi : i < entryCount) :
    Performed s (.clearEntry p) (s.clear i).1 (s.clear i).2 := by
  cases hw : (s.entry i).state.watching with
  | true => simpa [State.clear, hw] using .clearedWatching p i hi hw _
  | false => simpa [State.clear, hw] using .cleared p i hi hw _

theorem performed_resync {s : State} (p : List Byte) (i : Nat) (hi : i < entryCount) :
    Performed s (.resyncEntry p) (s.resync i).1 (s.resync i).2 := by
  unfold State.resync
  split
  · next hv => exact .resynced p i hi hv _
  · exact .report _ _

theorem performed_suspend {s : State} (p : List Byte) : Performed s (.suspend p) s.suspendPart.1 s.suspendPart.2 := by
  unfold State.suspendPart
  split
  · next hm => exact .suspended p hm _
  · exact .report _ _

theorem performed_resume {s : State} (p : List Byte) : Performed s (.resume p) s.resumePart.1 s.resumePart.2 := by
  unfold State.resumePart
  split
  · next hm => exact .resumed p hm _
  · exact .report _ _

theorem performed_ack {s : State} (p : List Byte) (number : Seq) :
    Performed s (.ackEvents p) (s.ack number).1 (s.ack number).2 := by
  cases hn : s.queue.ahead number with
  | true => simpa [State.ack, hn] using .report _ _
  | false => simpa [State.ack, hn] using .acknowledged p number hn _

theorem performed_configureClass {s : State} (p : List Byte) :
    Performed s (.setClass p) (s.configureClass p).1 (s.configureClass p).2 := by
  unfold State.configureClass
  split
  · exact .report _ _
  · split
    · exact .report _ _
    · split
      · exact .report _ _
      · split
        · next hn => exact .configured p _ _ _ _ hn.1 hn.2 _
        · exact .report _ _

theorem performed_clearMarks {s : State} (p : List Byte) (set : Byte) :
    Performed s (.clearMissed p) (s.clearMarks set).1 (s.clearMarks set).2 := by
  unfold State.clearMarks
  split
  · exact .marksCleared p _ _
  · exact .report _ _

theorem performed_assignClasses {s : State} (p : List Byte) :
    Performed s (.setPartClasses p) (s.assignClasses p).1 (s.assignClasses p).2 := by
  unfold State.assignClasses
  split
  case h_5 => exact .assigned p _ _
  all_goals exact .report _ _

theorem performed_selectTimebase {s : State} (p : List Byte) (code : Byte) (divisor : BitVec 16) :
    Performed s (.setTimebase p) (s.selectTimebase code divisor).1 (s.selectTimebase code divisor).2 := by
  unfold State.selectTimebase
  split
  · exact .report _ _
  · next source _ =>
    split
    · next hd =>
      split
      · exact .report _ _
      · next hclock =>
        refine .selected p source divisor hd (fun hs => ?_) _
        cases hm : s.time.monitor with
        | running => rfl
        | lost => exact absurd ⟨hs, hm⟩ hclock
    · exact .report _ _

/-- Every performance comes to one of these cases. -/
theorem performance_performed (c : Instr) (s : State) : Performed s c (performance c s).1 (performance c s).2 := by
  cases c
  case loadEntry p => exact .onEntry (performed_load p)
  case armEntry p => exact .onEntry (performed_arm p)
  case disarmEntry p => exact .onEntry (performed_disarm p)
  case clearEntry p => exact .onEntry (performed_clear p)
  case resyncEntry p => exact .onEntry (performed_resync p)
  case queryEntry p => exact .onEntry fun _ _ => .report _ _
  case suspend p => exact performed_suspend p
  case resume p => exact performed_resume p
  case readEvents p =>
    simp only [performance, State.read]
    split <;> exact .report _ _
  case ackEvents p => exact performed_ack p _
  case setClass p => exact performed_configureClass p
  case clearMissed p => exact performed_clearMarks p _
  case setPartClasses p => exact performed_assignClasses p
  case setTimebase p => exact performed_selectTimebase p _ _
  case resetPart p => exact .resetAsked p []
  all_goals exact .report _ _

/-- A performance that is not answered OK has changed nothing. -/
theorem Performed.eq_of_status {s u : State} {c : Instr} {r : Reply} (h : Performed s c u r) (hr : r.status ≠ 0x01) :
    u = s := by
  cases h
  case report => rfl
  all_goals exact absurd rfl hr

/-! ## All commands -/

/-- The commands that name a tick (R97, log 4). -/
def isTick : Instr → Bool
  | .tick _ | .deadlineLapse _ _ | .rateWindowOpens _ _ | .strobePulseEnd _ _ => true
  | _ => false

/-- The commands that name the end of an access (R56). -/
def endsAccess : Instr → Bool
  | .memoryReady _ _ | .responseLimit => true
  | _ => false

/-- The state at the end of a select period (R155, R162). -/
def State.deselected (s : State) : State :=
  { s.quiet with pins := { s.pins with csnLow := false, sdo := none }, link := .idle }

/-- What a command can bring about. -/
inductive Effect (s : State) : Instr → State → Prop where
  /-- The conditions of the command do not hold (log 1). -/
  | quiet (c : Instr) : Effect s c s.quiet
  /-- The edge of BCLK of the command gives the answer held, and nothing else comes of it. -/
  | answered (c : Instr) : Effect s c s.answered
  | powerUp :
      Effect s .powerUp { State.reset with
        pins := .atPowerUp s.pins.csnLow s.pins.sckHigh, idles := s.idles, pending := s.pending }
  | powerUpResetEnd (hp : s.power = .powerUpReset) :
      Effect s .powerUpResetEnd { s.quiet with
        power := .initialising 0, pins := .atPowerUp s.pins.csnLow s.pins.sckHigh }
  | initialisationEnd (n : Nat) (hp : s.power = .initialising n) : Effect s .initialisationEnd s.quiet.endInitialisation
  | srstnFall (h : s.pins.srstnLow = false) : Effect s .srstnFall s.answered.takeSrstnFall
  | srstnRise (h : s.pins.srstnLow = true) : Effect s .srstnRise s.answered.takeSrstnRise
  | hostReset (h : s.pins.hrstnLow = false) : Effect s .hostReset s.quiet.takeHrstnFall
  | hrstnRise (h : s.pins.hrstnLow = true) : Effect s .hrstnRise s.quiet.takeHrstnRise
  | beatTaken (c : Instr) (x : Transaction) (data : Word) (strobes : Lanes) (hb : beatOffered c s = some (x, data, strobes))
      (ho : s.hostPortOpen = true) : Effect s c (s.answered.takeBeat x data strobes)
  | accessEnded (c : Instr) (r : AccessEnd) (hc : endsAccess c = true) : Effect s c (s.answered.endAccess r)
  | ticked (c : Instr) (order : TickOrder) (hc : isTick c = true) (hp : s.clocked = true) :
      Effect s c (s.quiet.tickOnce order)
  | gapExpired (hp : s.clocked = true) (hg : s.time.gap < 64) : Effect s .gapCountExpiry s.quiet.gapExpires
  | refclkEdge (order : TickOrder) (hp : s.clocked = true) :
      Effect s (.refclkRisingEdge order) (s.quiet.refclkEdge order)
  | csnFallEarly (h : s.pins.csnLow = false) (hp : s.power ≠ .running) :
      Effect s .csnFall { s.quiet with pins := { s.pins with csnLow := true } }
  | csnFall (h : s.pins.csnLow = false) (hp : s.power = .running) :
      Effect s .csnFall { s.quiet with
        pins := { s.pins with csnLow := true, sdo := some false }
        link := { Link.idle with phase := if s.pins.srstnLow then .trailing else .request } }
  | csnRise (h : s.pins.csnLow = true) (hr : s.link.resetPending = false) : Effect s .csnRise s.deselected
  | csnRiseReset (h : s.pins.csnLow = true) (hr : s.link.resetPending = true) :
      Effect s .csnRise s.deselected.supervisorReset
  | byteReceived (byte : Byte) (l : Link) (ht : s.link.takesByte byte = true) (hl : s.link.receive byte = some l) :
      Effect s (.requestByteReceived byte) (s.quiet.byteDone l 0)
  | byteSent (l : Link) (b : Byte) (hl : s.link.send = some (l, b)) : Effect s .responseByteSent (s.quiet.byteDone l b)
  | badFrame (byte : Byte) (l : Link) (ht : s.link.takesByte byte = true) (hl : s.link.refuseFrame byte = some l) :
      Effect s (.badFrame byte) (s.quiet.byteDone l 0)
  | badCommand (code : Byte) (p : List Byte) (ha : s.link.awaits code p = true) (hc : requestCodes.contains code = false) :
      Effect s (.badCommand code p) (s.quiet.respond code p .badCommand)
  | wrongLength (c : Instr) (code : Byte) (n : Nat) (p : List Byte) (hc : requestParts c = some (code, n, p))
      (ha : s.link.awaits code p = true) : Effect s c (s.quiet.respond code p (.badParam 0))
  | performed (c : Instr) (code : Byte) (n : Nat) (p : List Byte) (hc : requestParts c = some (code, n, p))
      (ha : s.link.awaits code p = true) (u : State) (r : Reply) (hu : Performed s.quiet c u r) :
      Effect s c (u.respond code p r)

/-- The command answers a next state, which is one of its effects. -/
def Answers (s : State) (c : Instr) (o : Host.Outcome State Fault Refusal) : Prop := ∃ t, o = .next t ∧ Effect s c t

theorem Effect.answers {s t : State} {c : Instr} (h : Effect s c t) : Answers s c (.next t) := ⟨t, rfl, h⟩

theorem answers_request {c : Instr} {code : Byte} {n : Nat} {p : List Byte} (h : requestParts c = some (code, n, p))
    (s : State) : Answers s c (exec c s) := by
  rw [exec_request h]
  refine Effect.answers ?_
  unfold State.serve
  split
  · next ha =>
    split
    · exact .performed (s := s) c code n p h ha _ _ (performance_performed c s.quiet)
    · exact .wrongLength c code n p h ha
  · exact .quiet c

theorem answers_powerUpResetEnd (s : State) : Answers s .powerUpResetEnd (execPowerUpResetEnd s) := by
  unfold execPowerUpResetEnd
  split
  · next hp => exact (Effect.powerUpResetEnd hp).answers
  all_goals exact (Effect.quiet _).answers

theorem answers_initialisationEnd (s : State) : Answers s .initialisationEnd (execInitialisationEnd s) := by
  unfold execInitialisationEnd
  split
  · next n hp => exact (Effect.initialisationEnd n hp).answers
  all_goals exact (Effect.quiet _).answers

theorem answers_srstnFall (s : State) : Answers s .srstnFall (execSrstnFall s) := by
  simp only [execSrstnFall, State.atBclk_eq]
  split
  · exact (Effect.answered _).answers
  · next h => exact (Effect.srstnFall (by simpa using h)).answers

theorem answers_srstnRise (s : State) : Answers s .srstnRise (execSrstnRise s) := by
  simp only [execSrstnRise, State.atBclk_eq]
  split
  · next h => exact (Effect.srstnRise h).answers
  · exact (Effect.answered _).answers

theorem answers_hostReset (s : State) : Answers s .hostReset (execHostReset s) := by
  unfold execHostReset
  split
  · exact (Effect.quiet _).answers
  · next h => exact (Effect.hostReset (by simpa using h)).answers

theorem answers_hrstnRise (s : State) : Answers s .hrstnRise (execHrstnRise s) := by
  unfold execHrstnRise
  split
  · next h => exact (Effect.hrstnRise h).answers
  · exact (Effect.quiet _).answers

theorem State.answered_host_of_open {s : State} (h : s.hostPortOpen = true) : s.answered.host = s.hostAnswered := by
  simp [State.answered, h]

theorem answers_transactionRequestTaken (s : State) (start : Addr) (hdir : Bool) (hlen : BitVec 2) (data : Word)
    (strobes : Lanes) :
    Answers s (.transactionRequestTaken start hdir hlen data strobes)
      (execTransactionRequestTaken start hdir hlen data strobes s) := by
  simp only [execTransactionRequestTaken, State.atBclk_eq]
  split
  · next h =>
    obtain ⟨ho, hn⟩ := Bool.and_eq_true_iff.mp h
    refine (Effect.beatTaken _ _ data strobes ?_ ho).answers
    rw [State.answered_host_of_open ho] at hn
    simp [beatOffered, hn]
  · exact (Effect.answered _).answers

theorem answers_beatTaken (s : State) (data : Word) (strobes : Lanes) :
    Answers s (.beatTaken data strobes) (execBeatTaken data strobes s) := by
  simp only [execBeatTaken, State.atBclk_eq]
  split
  · exact (Effect.answered _).answers
  · next x hx =>
    split
    · next h =>
      obtain ⟨ho, hn⟩ := Bool.and_eq_true_iff.mp h
      refine (Effect.beatTaken _ _ data strobes ?_ ho).answers
      rw [State.answered_host_of_open ho] at hx
      simp [beatOffered, hx, hn]
    · exact (Effect.answered _).answers

theorem answers_tick (s : State) (c : Instr) (order : TickOrder) (b : Bool) (hc : isTick c = true) :
    Answers s c (if s.clocked && b then .next (s.quiet.tickOnce order) else .next s.quiet) := by
  split
  · next h => exact (Effect.ticked c order hc (Bool.and_eq_true_iff.mp h).1).answers
  · exact (Effect.quiet _).answers

theorem answers_gapCountExpiry (s : State) : Answers s .gapCountExpiry (execGapCountExpiry s) := by
  unfold execGapCountExpiry
  split
  · next h =>
    obtain ⟨hp, hg⟩ := Bool.and_eq_true_iff.mp h
    exact (Effect.gapExpired hp (of_decide_eq_true hg)).answers
  · exact (Effect.quiet _).answers

theorem answers_refclkRisingEdge (s : State) (order : TickOrder) :
    Answers s (.refclkRisingEdge order) (execRefclkRisingEdge order s) := by
  unfold execRefclkRisingEdge
  split
  · next hp => exact (Effect.refclkEdge order hp).answers
  · exact (Effect.quiet _).answers

theorem answers_csnFall (s : State) : Answers s .csnFall (execCsnFall s) := by
  unfold execCsnFall
  split
  · exact (Effect.quiet _).answers
  · next h =>
    have hlow : s.pins.csnLow = false := by simpa using h
    split
    · next hp => exact (Effect.csnFallEarly hlow (by simp [hp])).answers
    · next hp => exact (Effect.csnFallEarly hlow (by simp [hp])).answers
    · next hp => exact (Effect.csnFall hlow hp).answers

theorem answers_csnRise (s : State) : Answers s .csnRise (execCsnRise s) := by
  unfold execCsnRise
  split
  · next h =>
    dsimp only
    split
    · next hr => exact (Effect.csnRiseReset h hr).answers
    · next hr => exact (Effect.csnRise h (by simpa using hr)).answers
  · exact (Effect.quiet _).answers

theorem answers_requestByteReceived (s : State) (byte : Byte) :
    Answers s (.requestByteReceived byte) (execRequestByteReceived byte s) := by
  unfold execRequestByteReceived
  split
  · next ht =>
    split
    · next l hl => exact (Effect.byteReceived byte l ht hl).answers
    · exact (Effect.quiet _).answers
  · exact (Effect.quiet _).answers

theorem answers_responseByteSent (s : State) : Answers s .responseByteSent (execResponseByteSent s) := by
  unfold execResponseByteSent
  split
  · next l b hl => exact (Effect.byteSent l b hl).answers
  · exact (Effect.quiet _).answers

theorem answers_badFrame (s : State) (byte : Byte) : Answers s (.badFrame byte) (execBadFrame byte s) := by
  unfold execBadFrame
  split
  · next ht =>
    split
    · next l hl => exact (Effect.badFrame byte l ht hl).answers
    · exact (Effect.quiet _).answers
  · exact (Effect.quiet _).answers

theorem answers_badCommand (s : State) (code : Byte) (p : List Byte) :
    Answers s (.badCommand code p) (execBadCommand code p s) := by
  unfold execBadCommand
  split
  · next h =>
    obtain ⟨ha, hc⟩ := Bool.and_eq_true_iff.mp h
    exact (Effect.badCommand code p ha (by simpa using hc)).answers
  · exact (Effect.quiet _).answers

/-- Every command answers a next state, which is one of its effects. -/
theorem exec_answers (c : Instr) (s : State) : Answers s c (exec c s) := by
  cases c
  case powerUp => exact Effect.powerUp.answers
  case powerUpResetEnd => exact answers_powerUpResetEnd s
  case initialisationEnd => exact answers_initialisationEnd s
  case srstnFall => exact answers_srstnFall s
  case srstnRise => exact answers_srstnRise s
  case hostReset => exact answers_hostReset s
  case hrstnRise => exact answers_hrstnRise s
  case transactionRequestTaken start hdir hlen data strobes => exact answers_transactionRequestTaken s start hdir hlen data strobes
  case beatTaken data strobes => exact answers_beatTaken s data strobes
  case memoryReady data error =>
    have h := Effect.accessEnded (s := s) (.memoryReady data error) (if error then .memoryError else .completion data) rfl
    simpa only [exec, execMemoryReady, State.atBclk_eq] using h.answers
  case responseLimit =>
    have h := Effect.accessEnded (s := s) .responseLimit .responseLimit rfl
    simpa only [exec, execResponseLimit, State.atBclk_eq] using h.answers
  case tick order => simpa [exec, execTick] using answers_tick s (.tick order) order true rfl
  case deadlineLapse i order =>
    simpa [exec, execDeadlineLapse, Bool.and_assoc] using
      answers_tick s (.deadlineLapse i order) order (decide (s.mode = .monitoring) && (s.entry i).lapsesAtTick) rfl
  case rateWindowOpens i order =>
    simpa [exec, execRateWindowOpens, Bool.and_assoc] using
      answers_tick s (.rateWindowOpens i order) order (decide (s.mode = .monitoring) && (s.entry i).opensWindowAtTick) rfl
  case strobePulseEnd k order => exact answers_tick s (.strobePulseEnd k order) order _ rfl
  case gapCountExpiry => exact answers_gapCountExpiry s
  case refclkRisingEdge order => exact answers_refclkRisingEdge s order
  case csnFall => exact answers_csnFall s
  case csnRise => exact answers_csnRise s
  case requestByteReceived byte => exact answers_requestByteReceived s byte
  case responseByteSent => exact answers_responseByteSent s
  case badFrame byte => exact answers_badFrame s byte
  case badCommand code p => exact answers_badCommand s code p
  all_goals exact answers_request rfl s

/-- A state that a command reaches is one of its effects. -/
theorem effect_of_exec {c : Instr} {s t : State} (h : exec c s = .next t) : Effect s c t := by
  obtain ⟨u, hu, heffect⟩ := exec_answers c s
  rw [hu] at h
  cases h
  exact heffect

end Sys2Proof.Machine
end

section
/-! The frames of the larger operations, and the step as a whole: a step runs the command in front or passes one edge of a
clock, so what all effects of commands and all edges keep, every step keeps. -/

namespace Sys2Proof.Machine

/-! ## Frames -/

theorem State.supervisorReset_frame (s : State) :
    s.supervisorReset =
      { s with mode := .monitoring, entries := s.supervisorReset.entries, checker := s.supervisorReset.checker
               host := s.supervisorReset.host, port := s.supervisorReset.port, queue := s.supervisorReset.queue
               alerts := s.supervisorReset.alerts } := by
  unfold State.supervisorReset
  rw [State.settle_frame]

/-- While the part runs a fall of SRSTN is a supervisor reset and moves pins and link; before that it moves the pins at most. -/
theorem State.takeSrstnFall_frame (s : State) :
    s.takeSrstnFall =
      { s with pins := s.takeSrstnFall.pins, mode := s.takeSrstnFall.mode, entries := s.takeSrstnFall.entries
               checker := s.takeSrstnFall.checker, host := s.takeSrstnFall.host, port := s.takeSrstnFall.port
               queue := s.takeSrstnFall.queue, alerts := s.takeSrstnFall.alerts, link := s.takeSrstnFall.link } := by
  unfold State.takeSrstnFall
  split
  · rfl
  · rfl
  · rw [State.supervisorReset_frame]

/-- The event of a host reset (R91). -/
def State.hostResetEvent (s : State) : Event :=
  match s.host with
  | none => s.partEvent .hostReset none (some 0)
  | some t => s.partEvent .hostReset (some t.start) (some 1)

theorem State.hostResetTaken_eq (s : State) :
    s.hostResetTaken =
      { s.raise [s.hostResetEvent] with
        host := none, checker := none, port := { s.port with bus := s.port.bus.map Access.afterHostReset } } := rfl

theorem State.hostResetTaken_frame (s : State) :
    s.hostResetTaken =
      { s with checker := none, host := none, port := { s.port with bus := s.port.bus.map Access.afterHostReset }
               queue := s.hostResetTaken.queue, alerts := s.hostResetTaken.alerts } := by
  rw [State.hostResetTaken_eq, State.raise_frame]

theorem State.takeHrstnFall_frame (s : State) :
    s.takeHrstnFall =
      { s with pins := s.takeHrstnFall.pins, checker := s.takeHrstnFall.checker, host := s.takeHrstnFall.host
               port := s.takeHrstnFall.port, queue := s.takeHrstnFall.queue, alerts := s.takeHrstnFall.alerts } := by
  unfold State.takeHrstnFall
  split
  · rfl
  · rfl
  · rw [State.hostResetTaken_frame]

theorem State.takeBeat_frame (s : State) (x : Transaction) (data : Word) (strobes : Lanes) :
    s.takeBeat x data strobes =
      { s with
        entries := (s.takeBeat x data strobes).entries, checker := (s.takeBeat x data strobes).checker
        host := (s.takeBeat x data strobes).host, port := (s.takeBeat x data strobes).port
        queue := (s.takeBeat x data strobes).queue, alerts := (s.takeBeat x data strobes).alerts } := by
  unfold State.takeBeat
  dsimp only
  split
  · rw [State.settle_frame]
  · rfl
  · rfl

theorem State.tickOnce_frame (s : State) (order : TickOrder) :
    s.tickOnce order =
      { s with entries := s.countTick.tickEntries, time := s.countTick.time, queue := (s.tickOnce order).queue
               alerts := (s.tickOnce order).alerts } := by
  unfold State.tickOnce
  cases order <;> dsimp only <;> rw [State.raise_frame] <;> rfl

theorem State.sourcePeriod_frame (s : State) (order : TickOrder) :
    s.sourcePeriod order =
      { s with entries := (s.sourcePeriod order).entries, time := (s.sourcePeriod order).time
               queue := (s.sourcePeriod order).queue, alerts := (s.sourcePeriod order).alerts } := by
  unfold State.sourcePeriod
  split
  · rw [State.tickOnce_frame]
  · rfl

theorem State.gapExpires_frame (s : State) :
    s.gapExpires =
      { s with time := s.gapExpires.time, queue := s.gapExpires.queue, alerts := s.gapExpires.alerts } := by
  unfold State.gapExpires
  dsimp only
  split
  · unfold State.fallBack
    rw [State.raise_frame]
  · rfl

theorem State.countGap_frame (s : State) :
    s.countGap = { s with time := s.countGap.time, queue := s.countGap.queue, alerts := s.countGap.alerts } := by
  unfold State.countGap
  split_ifs
  · rfl
  · exact s.gapExpires_frame
  · rfl

theorem State.refclkEdge_frame (s : State) (order : TickOrder) :
    s.refclkEdge order =
      { s with entries := (s.refclkEdge order).entries, time := (s.refclkEdge order).time
               queue := (s.refclkEdge order).queue, alerts := (s.refclkEdge order).alerts } := by
  unfold State.refclkEdge
  dsimp only
  split
  · rw [State.sourcePeriod_frame]
  · rfl

/-- An IRC period is a source period while IRC is the source, and then one more in the gap count. -/
theorem State.ircPeriod_eq (s : State) (order : TickOrder) :
    s.ircPeriod order = (if s.time.source = .irc then s.sourcePeriod order else s).countGap := rfl

theorem State.ircPeriod_frame (s : State) (order : TickOrder) :
    s.ircPeriod order =
      { s with entries := (s.ircPeriod order).entries, time := (s.ircPeriod order).time
               queue := (s.ircPeriod order).queue, alerts := (s.ircPeriod order).alerts } := by
  rw [State.ircPeriod_eq, State.countGap_frame]
  split
  · rw [State.sourcePeriod_frame]
  · rfl

/-- What a request performs leaves the pins, the outputs and the queue of commands. -/
theorem Performed.frame {s u : State} {c : Instr} {r : Reply} (h : Performed s c u r) :
    u = { s with mode := u.mode, entries := u.entries, checker := u.checker, host := u.host, port := u.port, time := u.time
                 queue := u.queue, alerts := u.alerts, link := { s.link with resetPending := u.link.resetPending } } := by
  cases h
  case armedFetching | resynced => rw [State.settle_frame, State.beginFetch_frame]
  case armed | armedPending | disarmed | clearedWatching => rw [State.settle_frame]; rfl
  case suspended | resumed => rw [State.settle_frame]
  all_goals rfl

/-! ## A sample of a reset pin, and a period of BCLK -/

theorem State.sampleSrstn_frame (s : State) (low : Bool) :
    s.sampleSrstn low =
      { s with pins := (s.sampleSrstn low).pins, mode := (s.sampleSrstn low).mode, entries := (s.sampleSrstn low).entries
               checker := (s.sampleSrstn low).checker, host := (s.sampleSrstn low).host, port := (s.sampleSrstn low).port
               queue := (s.sampleSrstn low).queue, alerts := (s.sampleSrstn low).alerts
               link := (s.sampleSrstn low).link } := by
  rcases s.sampleSrstn_cases low with h | ⟨-, -, h⟩ | ⟨-, -, h⟩ <;> rw [h]
  · rw [State.takeSrstnFall_frame]
  · rfl

theorem State.sampleHrstn_frame (s : State) (low : Bool) :
    s.sampleHrstn low =
      { s with pins := (s.sampleHrstn low).pins, checker := (s.sampleHrstn low).checker, host := (s.sampleHrstn low).host
               port := (s.sampleHrstn low).port, queue := (s.sampleHrstn low).queue
               alerts := (s.sampleHrstn low).alerts } := by
  rcases s.sampleHrstn_cases low with h | ⟨-, -, h⟩ | ⟨-, -, h⟩ <;> rw [h]
  · rw [State.takeHrstnFall_frame]
  · rfl

theorem State.bclkPeriod_frame (s : State) :
    s.bclkPeriod =
      { s with power := s.bclkPeriod.power, pins := s.bclkPeriod.pins, entries := s.bclkPeriod.entries
               checker := s.bclkPeriod.checker, host := s.bclkPeriod.host, port := s.bclkPeriod.port
               queue := s.bclkPeriod.queue, alerts := s.bclkPeriod.alerts, link := s.bclkPeriod.link } := by
  unfold State.bclkPeriod
  split
  · rfl
  · split <;> rfl
  · split
    · rfl
    · split
      · rfl
      · rw [State.endAccess_frame]

/-! ## The step -/

theorem step_of_command {s : State} {c : Instr} {rest : List Instr} (h : s.pending = c :: rest) :
    step s = exec c { s with pending := rest } := by
  simp [step, h]

theorem step_of_idle {s : State} (h : s.pending = []) :
    step s = State.passEdge { s.quiet with idles := s.idles + 1 } (idleEdge s.idles) := by
  simp [step, h, State.idle]

/-- The state with a bit of the byte in progress sampled (R155). -/
def State.bitSampled (s : State) (sdi : Bool) : State :=
  { s with pins := { s.pins with sckHigh := true }, link := { s.link with bits := s.link.bits ++ [sdi] } }

/-- What every effect of a command and every edge of a clock keeps. -/
structure StepInvariant (P : State → Prop) : Prop where
  dequeue (s : State) (rest : List Instr) : P s → P { s with pending := rest }
  count (s : State) (n : Nat) : P s → P { s.quiet with idles := n }
  effect (s : State) (c : Instr) (t : State) : P s → Effect s c t → P t
  srstn (s : State) (low : Bool) : P s → P (s.sampleSrstn low)
  hrstn (s : State) (low : Bool) : P s → P (s.sampleHrstn low)
  period (s : State) : P s → P s.bclkPeriod
  give (s : State) : P s → P s.giveAnswer
  irc (s : State) (order : TickOrder) : P s → P (s.ircPeriod order)
  sckFalls (s : State) : P s → P s.sckFalls
  sckIgnored (s : State) : P s → P { s with pins := { s.pins with sckHigh := true } }
  sckSamples (s : State) (sdi : Bool) (hphase : s.link.phase ≠ .idle) (hbits : s.link.bits.length < 7) :
    P s → P (s.bitSampled sdi)

namespace StepInvariant
variable {P : State → Prop} {s t : State}

theorem sckRises (h : StepInvariant P) {sdi : Bool} (hs : P s) (ht : s.sckRises sdi = .next t) : P t := by
  unfold State.sckRises at ht
  dsimp only at ht
  split at ht
  · cases ht
    exact h.sckIgnored s hs
  · next hphase =>
    split at ht
    · next hbits =>
      cases ht
      exact h.sckSamples s sdi hphase hbits hs
    · exact h.effect s _ t hs (effect_of_exec ht)

theorem passEdge (h : StepInvariant P) {e : ClockEdge} (hs : P s) (ht : s.passEdge e = .next t) : P t := by
  cases e with
  | bclk a b order =>
    cases ht
    exact State.bclkEdge_keeps h.srstn h.hrstn h.period h.give hs a b order
  | sck sdi =>
    simp only [State.passEdge, State.sckEdge] at ht
    split at ht
    · cases ht
      exact h.sckFalls s hs
    · exact h.sckRises hs ht
  | irc order =>
    cases ht
    split
    · exact h.irc s order hs
    · exact hs

/-- What all of them keep, every step keeps. -/
theorem step (h : StepInvariant P) (hs : P s) (ht : step s = .next t) : P t := by
  cases hp : s.pending with
  | nil =>
    rw [step_of_idle hp] at ht
    exact h.passEdge (h.count s _ hs) ht
  | cons c rest =>
    rw [step_of_command hp] at ht
    exact h.effect _ c t (h.dequeue s rest hs) (effect_of_exec ht)

end StepInvariant

/-- A command leaves the queue of commands and the counter of idle steps to the step. -/
theorem Effect.waiting {s t : State} {c : Instr} (h : Effect s c t) : t.pending = s.pending ∧ t.idles = s.idles := by
  cases h
  case answered => rw [State.answered_frame]; exact ⟨rfl, rfl⟩
  case srstnFall => rw [State.takeSrstnFall_frame, State.answered_frame]; exact ⟨rfl, rfl⟩
  case srstnRise => simp only [State.takeSrstnRise_pending, State.takeSrstnRise_idles]; rw [State.answered_frame]; exact ⟨rfl, rfl⟩
  case hostReset => rw [State.takeHrstnFall_frame]; exact ⟨rfl, rfl⟩
  case beatTaken => rw [State.takeBeat_frame, State.answered_frame]; exact ⟨rfl, rfl⟩
  case accessEnded => rw [State.endAccess_frame, State.answered_frame]; exact ⟨rfl, rfl⟩
  case ticked => rw [State.tickOnce_frame]; exact ⟨rfl, rfl⟩
  case gapExpired => rw [State.gapExpires_frame]; exact ⟨rfl, rfl⟩
  case refclkEdge => rw [State.refclkEdge_frame]; exact ⟨rfl, rfl⟩
  case csnRiseReset => rw [State.supervisorReset_frame]; exact ⟨rfl, rfl⟩
  case performed hu => rw [State.respond_pending, State.respond_idles, hu.frame]; exact ⟨rfl, rfl⟩
  all_goals exact ⟨rfl, rfl⟩

/-- Settles O1: the step unfolds to the command in front. -/
theorem stepRunsTheFrontCommand : Obligations.StepRunsTheFrontCommand :=
  fun _ _ _ => step_of_command rfl

/-- Settles O3: every command answers one of its effects, and no effect touches the queue of commands or the counter. -/
theorem everyCommandAnswersANextState : Obligations.EveryCommandAnswersANextState := by
  intro c s
  obtain ⟨t, ht, heffect⟩ := exec_answers c s
  exact ⟨t, ht, heffect.waiting⟩

end Sys2Proof.Machine
end

section
/-! Power-up and start-up (R92, R181, R190), and a host reset (R88 to R91). A host reset at an edge of BCLK clears the
transaction in whichever order the edge's work comes: before the fall no other work moves HRSTN or gives an answer, and after it
none brings a transaction back. -/

namespace Sys2Proof.Machine

/-! ## Power-up and start-up -/

/-- Settles O9: the power-up state spelled out field by field. -/
theorem powerUpGivesEveryBlockItsValues : Obligations.PowerUpGivesEveryBlockItsValues := by
  intro s
  refine ⟨_, rfl, rfl, rfl, rfl, rfl, rfl, rfl, rfl, rfl, rfl, fun c => ?_, rfl, rfl, rfl, rfl, rfl, rfl⟩
  match c with
  | 0 | 1 | 2 | 3 => rfl

theorem exec_powerUpResetEnd_of_lasting {s : State} (h : s.power = .powerUpReset) :
    exec .powerUpResetEnd s =
      .next { s.quiet with power := .initialising 0, pins := .atPowerUp s.pins.csnLow s.pins.sckHigh } := by
  simp only [exec, execPowerUpResetEnd, h]

theorem exec_powerUpResetEnd_of_ended {s : State} (h : s.power ≠ .powerUpReset) :
    exec .powerUpResetEnd s = .next s.quiet := by
  simp only [exec, execPowerUpResetEnd]
  split
  · next hp => exact absurd hp h
  all_goals rfl

theorem exec_initialisationEnd_of_lasting {s : State} {n : Nat} (h : s.power = .initialising n) :
    exec .initialisationEnd s = .next s.quiet.endInitialisation := by
  simp only [exec, execInitialisationEnd, h]

theorem exec_initialisationEnd_of_not_lasting {s : State} (h : ∀ n, s.power ≠ .initialising n) :
    exec .initialisationEnd s = .next s.quiet := by
  simp only [exec, execInitialisationEnd]
  split
  · next n hp => exact absurd hp (h n)
  all_goals rfl

/-- Initialisation ends with the link in TRAILING within a select period and in IDLE outside one. -/
theorem State.endInitialisation_link (s : State) :
    s.endInitialisation.link = { Link.idle with phase := if s.pins.csnLow then .trailing else .idle } := by
  cases h : s.pins.csnLow <;> simp [State.endInitialisation, h]
  rfl

theorem exec_srstnRise_of_low {s : State} (h : s.pins.srstnLow = true) :
    exec .srstnRise s = .next s.answered.takeSrstnRise := by
  simp only [exec, execSrstnRise, h, if_true, State.atBclk_eq]

theorem exec_srstnRise_of_high {s : State} (h : s.pins.srstnLow = false) : exec .srstnRise s = .next s.answered := by
  simp [exec, execSrstnRise, h, State.atBclk_eq]

theorem exec_hrstnRise_of_low {s : State} (h : s.pins.hrstnLow = true) :
    exec .hrstnRise s = .next s.quiet.takeHrstnRise := by
  simp only [exec, execHrstnRise, h, if_true]

theorem exec_hrstnRise_of_high {s : State} (h : s.pins.hrstnLow = false) : exec .hrstnRise s = .next s.quiet := by
  simp [exec, execHrstnRise, h]

@[simp] theorem State.answered_pins (s : State) : s.answered.pins = s.pins := by rw [State.answered_frame]
@[simp] theorem State.answered_power (s : State) : s.answered.power = s.power := by rw [State.answered_frame]

/-- Settles O10: each command by the phase or the level that its condition asks for. -/
theorem startUpAndPinRises : Obligations.StartUpAndPinRises := by
  intro s
  refine ⟨exec_powerUpResetEnd_of_lasting, exec_powerUpResetEnd_of_ended, fun n hn => ?_,
    exec_initialisationEnd_of_not_lasting, fun h => ?_, exec_hrstnRise_of_low, exec_srstnRise_of_high,
    exec_hrstnRise_of_high⟩
  · refine ⟨_, exec_initialisationEnd_of_lasting hn, rfl, ?_⟩
    rw [State.endInitialisation_link]
    exact ⟨rfl, rfl, rfl, rfl, rfl⟩
  · rw [exec_srstnRise_of_low h, State.takeSrstnRise, State.answered_pins]

/-! ## A fall of HRSTN -/

section Fall
variable {s : State}

theorem State.takeHrstnFall_of_running (h : s.power = .running) :
    s.takeHrstnFall = { s.hostResetTaken with pins := s.pins.hrstnFalls } := by
  simp only [State.takeHrstnFall, h]

theorem exec_hostReset_of_high (h : s.pins.hrstnLow = false) : exec .hostReset s = .next s.quiet.takeHrstnFall := by
  simp [exec, execHostReset, h]

theorem exec_hostReset_of_low (h : s.pins.hrstnLow = true) : exec .hostReset s = .next s.quiet := by
  simp [exec, execHostReset, h]

/-- A second sample of the new level takes the fall. -/
theorem State.sampleHrstn_fall (hsample : s.pins.hrstnSample = true) (hlow : s.pins.hrstnLow = false) :
    s.sampleHrstn true = s.takeHrstnFall := by
  simp [State.sampleHrstn, hsample, hlow]

theorem State.sampleHrstn_rise (hsample : s.pins.hrstnSample = false) (hlow : s.pins.hrstnLow = true) :
    s.sampleHrstn false = s.takeHrstnRise := by
  simp [State.sampleHrstn, hsample, hlow]

end Fall

/-! ## Without a transaction -/

section NoHost
variable {s : State}

theorem State.beatAtChecker_of_no_host (h : s.host = none) : s.beatAtChecker = none := by
  simp [State.beatAtChecker, h]

theorem State.waitingBeat_of_no_host (h : s.host = none) : s.waitingBeat = none := by
  simp [State.waitingBeat, h]

theorem State.issueBeat_of_none (h : s.waitingBeat = none) : s.issueBeat = s := by
  simp [State.issueBeat, h]

@[simp] theorem State.issueHead_host (s : State) (k : GrantKind) : (s.issueHead k).host = s.host := by
  rw [State.issueHead_frame]

@[simp] theorem State.fill_host (s : State) : s.fill.host = s.host := by rw [State.fill_frame]
@[simp] theorem State.fill_checker (s : State) : s.fill.checker = s.checker := by rw [State.fill_frame]
@[simp] theorem State.grant_checker (s : State) : s.grant.checker = s.checker := by rw [State.grant_frame]

/-- A grant changes the transaction only as it issues its waiting beat. -/
theorem State.grant_host (s : State) : s.grant.host = s.host ∨ s.grant = s.issueBeat := by
  unfold State.grant
  split
  · exact .inl rfl
  · split
    · exact .inl rfl
    · exact .inl (State.issueHead_host _ _)
    · exact .inr rfl
    · exact .inl (State.issueHead_host _ _)

theorem State.grant_host_of_no_host (h : s.host = none) : s.grant.host = none := by
  rcases s.grant_host with hg | hg
  · rw [hg, h]
  · rw [hg, State.issueBeat_of_none (State.waitingBeat_of_no_host h), h]

/-- Settling brings no transaction about, and without one it leaves the decision in progress. -/
theorem State.settle_of_no_host (h : s.host = none) : s.settle.host = none ∧ s.settle.checker = s.checker := by
  unfold State.settle
  rw [State.examine_of_none (State.beatAtChecker_of_no_host h)]
  exact ⟨State.grant_host_of_no_host (by simpa using h), by simp⟩

end NoHost

/-! ## An access as it ends -/

/-- The state as the end of its access leaves it, before it settles. -/
def State.afterAccess (s : State) (a : Access) (r : AccessEnd) : State :=
  let s1 := { s with port := { s.port with bus := none } }
  match a.owner with
  | .host wanted => s1.endHost wanted a.addr a.op r
  | .fetch => s1.endFetch r
  | .strayFetch => s1

theorem State.endAccess_eq {s : State} {a : Access} (h : s.port.bus = some a) (r : AccessEnd) :
    s.endAccess r = (s.afterAccess a r).settle := by
  simp only [State.endAccess, h, State.afterAccess]
  cases a.owner <;> rfl

theorem State.endAccess_of_free {s : State} (h : s.port.bus = none) (r : AccessEnd) : s.endAccess r = s := by
  simp only [State.endAccess, h]

theorem State.returnToFetch_frame (s : State) (w : Addr) (op : BeatOp) :
    s.returnToFetch w op =
      { s with entries := (s.returnToFetch w op).entries
               port := { s.port with list := (s.returnToFetch w op).port.list } } := by
  cases op
  · rfl
  · exact State.beginFetches_frame _ _

theorem State.deliver_frame (s : State) (wanted : Bool) (a : HostAnswer) :
    s.deliver wanted a = { s with host := (s.deliver wanted a).host } := by
  cases wanted <;> rfl

theorem State.endHost_frame (s : State) (wanted : Bool) (addr : Addr) (op : BeatOp) (r : AccessEnd) :
    s.endHost wanted addr op r =
      { s with entries := (s.endHost wanted addr op r).entries, host := (s.endHost wanted addr op r).host
               port := { s.port with list := (s.endHost wanted addr op r).port.list }
               queue := (s.endHost wanted addr op r).queue, alerts := (s.endHost wanted addr op r).alerts } := by
  cases r <;> simp only [State.endHost, State.failHost, State.complete]
  case completion => rw [State.deliver_frame, State.raise_frame]
  all_goals rw [State.returnToFetch_frame, State.raise_frame, State.deliver_frame]

theorem State.endFetch_frame (s : State) (r : AccessEnd) :
    s.endFetch r =
      { s with entries := (s.endFetch r).entries, port := { s.port with list := (s.endFetch r).port.list }
               queue := (s.endFetch r).queue, alerts := (s.endFetch r).alerts } := by
  unfold State.endFetch
  split
  · rfl
  · dsimp only
    split
    · rfl
    · cases r
      · rfl
      all_goals simp only [State.failFetch]; rw [State.raise_frame]; rfl

/-- The end of an access reaches, before the state settles, the entries, the transaction, the list and the events alone. -/
theorem State.afterAccess_frame (s : State) (a : Access) (r : AccessEnd) :
    s.afterAccess a r =
      { s with entries := (s.afterAccess a r).entries, host := (s.afterAccess a r).host
               port := { s.port with bus := none, list := (s.afterAccess a r).port.list }
               queue := (s.afterAccess a r).queue, alerts := (s.afterAccess a r).alerts } := by
  unfold State.afterAccess
  dsimp only
  split
  · rw [State.endHost_frame]
  · rw [State.endFetch_frame]
  · rfl

/-- The transaction as an access ends: the answer of its own access is held for it. -/
theorem State.endHost_host (s : State) (wanted : Bool) (addr : Addr) (op : BeatOp) (r : AccessEnd) :
    ∃ a, (s.endHost wanted addr op r).host = (s.deliver wanted a).host := by
  cases r <;> simp only [State.endHost, State.failHost]
  case completion data =>
    refine ⟨answerOf op data, ?_⟩
    unfold State.complete
    rw [State.raise_frame]
    cases wanted <;> rfl
  all_goals
    refine ⟨.error, ?_⟩
    rw [State.returnToFetch_frame, State.raise_frame]

theorem State.afterAccess_of_no_host {s : State} (h : s.host = none) (a : Access) (r : AccessEnd) :
    (s.afterAccess a r).host = none := by
  unfold State.afterAccess
  dsimp only
  split
  · obtain ⟨x, hx⟩ := State.endHost_host { s with port := { s.port with bus := none } } ‹Bool› a.addr a.op r
    rw [hx]
    unfold State.deliver
    split <;> simp [h]
  · rw [State.endFetch_frame]
    exact h
  · exact h

/-- An access that ends brings no transaction about, and without one it leaves the decision in progress. -/
theorem State.endAccess_of_no_host {s : State} (h : s.host = none) (r : AccessEnd) :
    (s.endAccess r).host = none ∧ (s.endAccess r).checker = s.checker := by
  cases hb : s.port.bus with
  | none => rw [State.endAccess_of_free hb]; exact ⟨h, rfl⟩
  | some a =>
    rw [State.endAccess_eq hb]
    obtain ⟨hh, hc⟩ := State.settle_of_no_host (State.afterAccess_of_no_host h a r)
    exact ⟨hh, by rw [hc, State.afterAccess_frame]⟩

/-! ## An edge of BCLK that takes a fall of HRSTN (R89) -/

/-- Before the work of the edge takes the fall. -/
structure State.FallComing (s : State) : Prop where
  running : s.power = .running
  sample : s.pins.hrstnSample = true
  high : s.pins.hrstnLow = false
  silent : s.out.answer = none

/-- After it. -/
structure State.FallTaken (s : State) : Prop where
  running : s.power = .running
  host : s.host = none
  checker : s.checker = none
  low : s.pins.hrstnLow = true
  silent : s.out.answer = none

theorem State.takeSrstnFall_of_running {s : State} (h : s.power = .running) :
    s.takeSrstnFall =
      { s.supervisorReset with pins := s.pins.srstnFalls, link := s.link.afterSrstnFall s.pins.csnLow } := by
  simp only [State.takeSrstnFall, h]

/-- A sample of SRSTN leaves HRSTN. -/
theorem State.sampleSrstn_hrstn {s : State} (low : Bool) :
    (s.sampleSrstn low).pins.hrstnLow = s.pins.hrstnLow ∧ (s.sampleSrstn low).pins.hrstnSample = s.pins.hrstnSample := by
  rcases s.sampleSrstn_cases low with h | ⟨-, -, h⟩ | ⟨-, -, h⟩ <;> rw [h]
  · exact ⟨rfl, rfl⟩
  · unfold State.takeSrstnFall
    split <;> exact ⟨rfl, rfl⟩
  · exact ⟨rfl, rfl⟩

/-- While the part runs a period is one of the access on the bus, if there is one, or its last (R56). -/
theorem State.bclkPeriod_cases {s : State} (h : s.power = .running) :
    s.port.bus = none ∧ s.bclkPeriod = s ∨
      ∃ a, s.port.bus = some a ∧
        (a.period < 1024 ∧
            s.bclkPeriod = { s with port := { s.port with bus := some { a with period := a.period + 1 } } } ∨
          1024 ≤ a.period ∧ s.bclkPeriod = s.endAccess .responseLimit) := by
  cases hb : s.port.bus with
  | none => exact .inl ⟨rfl, by simp only [State.bclkPeriod, h, hb]⟩
  | some a =>
    refine .inr ⟨a, rfl, ?_⟩
    by_cases ha : a.period < 1024
    · exact .inl ⟨ha, by simp only [State.bclkPeriod, h, hb, if_pos ha]⟩
    · exact .inr ⟨Nat.le_of_not_lt ha, by simp only [State.bclkPeriod, h, hb, if_neg ha]⟩

/-- While the part runs a period leaves all pins, and the part runs on. -/
theorem State.bclkPeriod_of_running {s : State} (h : s.power = .running) :
    s.bclkPeriod.power = .running ∧ s.bclkPeriod.pins = s.pins := by
  rcases State.bclkPeriod_cases h with ⟨-, hs⟩ | ⟨a, -, ⟨-, hs⟩ | ⟨-, hs⟩⟩ <;> rw [hs]
  · exact ⟨h, rfl⟩
  · exact ⟨h, rfl⟩
  · rw [State.endAccess_frame]
    exact ⟨h, rfl⟩

/-- A supervisor reset brings no transaction about, and without one it leaves the decision in progress. -/
theorem State.supervisorReset_of_no_host {s : State} (h : s.host = none) :
    s.supervisorReset.host = none ∧ s.supervisorReset.checker = s.checker :=
  State.settle_of_no_host (s := { s with
    mode := .monitoring, entries := resetEntries, queue := .reset, alerts := .reset
    port := ⟨[], s.port.bus.map Access.afterSupervisorReset, none⟩ }) h

namespace State.FallComing
variable {s : State}

theorem sampleSrstn (h : s.FallComing) (low : Bool) : (s.sampleSrstn low).FallComing := by
  obtain ⟨hlow, hsample⟩ := s.sampleSrstn_hrstn low
  refine ⟨?_, hsample.trans h.sample, hlow.trans h.high, ?_⟩
  · rw [State.sampleSrstn_frame]; exact h.running
  · rw [State.sampleSrstn_frame]; exact h.silent

theorem bclkPeriod (h : s.FallComing) : s.bclkPeriod.FallComing := by
  obtain ⟨hpower, hpins⟩ := State.bclkPeriod_of_running h.running
  refine ⟨hpower, by rw [hpins]; exact h.sample, by rw [hpins]; exact h.high, ?_⟩
  rw [State.bclkPeriod_frame]
  exact h.silent

theorem sampleHrstn (h : s.FallComing) : (s.sampleHrstn true).FallTaken := by
  rw [State.sampleHrstn_fall h.sample h.high, State.takeHrstnFall_of_running h.running, State.hostResetTaken_frame]
  exact ⟨h.running, rfl, rfl, rfl, h.silent⟩

end State.FallComing

namespace State.FallTaken
variable {s : State}

theorem sampleSrstn (h : s.FallTaken) (low : Bool) : (s.sampleSrstn low).FallTaken := by
  obtain ⟨hlow, -⟩ := s.sampleSrstn_hrstn low
  refine ⟨by rw [State.sampleSrstn_frame]; exact h.running, ?_, ?_, hlow.trans h.low,
    by rw [State.sampleSrstn_frame]; exact h.silent⟩
  all_goals rcases s.sampleSrstn_cases low with hs | ⟨-, -, hs⟩ | ⟨-, -, hs⟩ <;> rw [hs]
  · exact h.host
  · rw [State.takeSrstnFall_of_running h.running]
    exact (State.supervisorReset_of_no_host h.host).1
  · exact h.host
  · exact h.checker
  · rw [State.takeSrstnFall_of_running h.running]
    exact (State.supervisorReset_of_no_host h.host).2.trans h.checker
  · exact h.checker

theorem bclkPeriod (h : s.FallTaken) : s.bclkPeriod.FallTaken := by
  obtain ⟨hpower, hpins⟩ := State.bclkPeriod_of_running h.running
  refine ⟨hpower, ?_, ?_, by rw [hpins]; exact h.low, by rw [State.bclkPeriod_frame]; exact h.silent⟩
  all_goals rcases State.bclkPeriod_cases h.running with ⟨-, hs⟩ | ⟨a, -, ⟨-, hs⟩ | ⟨-, hs⟩⟩ <;> rw [hs]
  · exact h.host
  · exact h.host
  · exact (State.endAccess_of_no_host h.host .responseLimit).1
  · exact h.checker
  · exact h.checker
  · exact (State.endAccess_of_no_host h.host .responseLimit).2.trans h.checker

end State.FallTaken

/-- An edge that takes a fall of HRSTN leaves no transaction and gives no answer, in whichever order its work comes. -/
theorem State.bclkEdge_takes_fall {s : State} (h : s.FallComing) (srstnLow : Bool) (order : Fin 6) :
    (s.bclkEdge srstnLow true order).FallTaken := by
  have htakes : s.takesHrstnFallAt true = true := by simp [State.takesHrstnFallAt, h.sample, h.high]
  rw [State.bclkEdge, if_neg (by simp [h.running]), if_pos htakes]
  match order with
  | 0 => exact (h.sampleSrstn _).sampleHrstn.bclkPeriod
  | 1 => exact (h.sampleHrstn.sampleSrstn _).bclkPeriod
  | 2 => exact (h.sampleSrstn _).bclkPeriod.sampleHrstn
  | 3 => exact h.sampleHrstn.bclkPeriod.sampleSrstn _
  | 4 => exact (h.bclkPeriod.sampleSrstn _).sampleHrstn
  | 5 => exact h.bclkPeriod.sampleHrstn.sampleSrstn _

/-- Settles O12: the fall by the phase of the part, the filter by its two samples, the edge by what comes before the fall and
after it. -/
theorem hostResetAbortsTheTransaction : Obligations.HostResetAbortsTheTransaction := by
  intro s
  refine ⟨fun hp hlow => ?_, fun n hp hlow => ?_, exec_hostReset_of_low, fun low => ⟨State.sampleHrstn_of_steady, ?_, ?_, ?_⟩⟩
  · refine ⟨_, exec_hostReset_of_high hlow, ?_⟩
    rw [State.takeHrstnFall_of_running (s := s.quiet) hp]
    refine ⟨by rw [State.hostResetTaken_frame]; rfl, fun x hx => ?_, fun hn => ?_⟩
    all_goals rw [State.hostResetTaken_eq]
    · simp only [State.hostResetEvent, State.quiet_host, hx]
      exact ⟨rfl, rfl⟩
    · simp only [State.hostResetEvent, State.quiet_host, hn]
      exact ⟨rfl, rfl⟩
  · rw [exec_hostReset_of_high hlow]
    simp only [State.takeHrstnFall, State.quiet_power, hp]
    rfl
  · rintro rfl hsample hlow
    rw [exec_hostReset_of_high hlow]
    exact congrArg _ (State.sampleHrstn_fall (s := s.quiet) hsample hlow).symm
  · rintro rfl hsample hlow
    rw [exec_hrstnRise_of_low hlow]
    exact congrArg _ (State.sampleHrstn_rise (s := s.quiet) hsample hlow).symm
  · intro order hp hsample hlow
    have h := State.bclkEdge_takes_fall (s := s.quiet) ⟨hp, hsample, hlow, rfl⟩ low order
    exact ⟨h.host, h.checker, h.low, h.silent⟩

end Sys2Proof.Machine
end

section
/-! The time base and the tick (R97 to R113). The queue that a group of events leaves depends on the queue alone, and the alert
unit on queue and alert unit alone; so a tick's events are those of the state before it, in either order of log 5. -/

namespace Sys2Proof.Machine

/-! ## What events depend on -/

theorem State.raise_queue_congr {s t : State} (h : s.queue = t.queue) (evs : List Event) :
    (s.raise evs).queue = (t.raise evs).queue := by
  induction evs generalizing s t with
  | nil => exact h
  | cons ev evs ih => exact ih (by simp [h])

theorem State.raise_alerts_congr {s t : State} (hq : s.queue = t.queue) (ha : s.alerts = t.alerts) (evs : List Event) :
    (s.raise evs).alerts = (t.raise evs).alerts := by
  induction evs generalizing s t with
  | nil => exact ha
  | cons ev evs ih => exact ih (by simp [hq]) (by simp [hq, ha])

/-! ## A tick -/

theorem State.tickOnce_entries (s : State) (order : TickOrder) :
    (s.tickOnce order).entries = s.countTick.tickEntries := by rw [State.tickOnce_frame]

theorem State.tickOnce_queue (s : State) (order : TickOrder) :
    (s.tickOnce order).queue = (s.raise s.countTick.tickEvents).queue := by
  cases order
  · exact State.raise_queue_congr (s := State.alertTick { s.countTick with entries := s.countTick.tickEntries }) (t := s) rfl _
  · exact State.raise_queue_congr (s := { s.countTick with entries := s.countTick.tickEntries }) (t := s) rfl _

/-- The alert unit counts the tick before it takes the records. -/
theorem State.tickOnce_alerts_alertFirst (s : State) :
    (s.tickOnce .alertFirst).alerts = (s.alertTick.raise s.countTick.tickEvents).alerts :=
  State.raise_alerts_congr (s := State.alertTick { s.countTick with entries := s.countTick.tickEntries })
    (t := s.alertTick) rfl rfl _

/-- The alert unit counts the tick after it has taken the records. -/
theorem State.tickOnce_alerts_recordsFirst (s : State) :
    (s.tickOnce .recordsFirst).alerts = (s.raise s.countTick.tickEvents).alerts.ticked :=
  congrArg AlertUnit.ticked
    (State.raise_alerts_congr (s := { s.countTick with entries := s.countTick.tickEntries }) (t := s) rfl rfl _)

@[simp] theorem Entry.ticked_empty (now : TickCount) : Entry.empty.ticked now = Entry.empty := rfl

/-- Each entry takes its tick in MONITORING, and stays in SUSPENDED (R107, R113). -/
theorem State.entry_tickOnce (s : State) (order : TickOrder) (i : Nat) :
    (s.tickOnce order).entry i =
      if s.mode = .monitoring then (s.entry i).ticked (s.time.tickCounter + 1) else s.entry i := by
  rw [State.entry, State.tickOnce_entries, State.tickEntries, State.countTick_mode]
  split
  · exact entryAt_mapFrom_of_empty (fun _ e => e.ticked (s.time.tickCounter + 1)) _ _ (Entry.ticked_empty _)
  · rfl

theorem exec_tick {s : State} (h : s.power ≠ .powerUpReset) (order : TickOrder) :
    exec (.tick order) s = .next (s.quiet.tickOnce order) := by
  simp [exec, execTick, State.clocked, h]

/-- Settles O29: the tick's four parts, each by its own lemma. -/
theorem tickReachesTableAndAlerts : Obligations.TickReachesTableAndAlerts := by
  intro s order hp now events
  refine ⟨_, exec_tick hp order, ?_, s.quiet.entry_tickOnce order, ?_, ?_, ?_⟩
  · rw [State.tickOnce_frame]; rfl
  · rw [State.tickOnce_queue]
    exact State.raise_queue_congr (by rfl) _
  · rintro rfl
    rw [State.tickOnce_alerts_alertFirst]
    exact State.raise_alerts_congr (by rfl) (by rfl) _
  · rintro rfl
    rw [State.tickOnce_alerts_recordsFirst]
    exact congrArg AlertUnit.ticked (State.raise_alerts_congr (by rfl) (by rfl) _)

/-! ## One entry and one class at a tick -/

section Entry
variable {e : Entry} {d : Descriptor}

theorem Descriptor.isDeadline_iff (d : Descriptor) : d.isDeadline = true ↔ d.kind = .deadline := by
  simp [Descriptor.isDeadline]

theorem Descriptor.isRate_iff (d : Descriptor) : d.isRate = true ↔ d.kind = .count ∧ d.countMode = .rate := by
  simp [Descriptor.isRate]

theorem Descriptor.isTotal_iff (d : Descriptor) : d.isTotal = true ↔ d.kind = .count ∧ d.countMode = .total := by
  simp [Descriptor.isTotal]

/-- R21, R107: an ARMED DEADLINE entry lapses at its last tick, unless a completion spares it. -/
theorem Entry.lapsesAtTick_eq (hs : e.state = .armed) (hd : e.desc = some d) (hk : d.kind = .deadline) :
    e.lapsesAtTick = (decide (e.rt.remaining ≤ 1) && !e.rt.spared) := by
  simp [Entry.lapsesAtTick, hs, hd, Descriptor.isDeadline, hk]

theorem Entry.ticked_deadline_lapses (hs : e.state = .armed) (hd : e.desc = some d) (hk : d.kind = .deadline)
    (hr : e.rt.remaining = 1) (hspared : e.rt.spared = false) (now : TickCount) :
    e.ticked now = { e with state := .lapsed, rt := { e.rt with remaining := 0, lapseTick := now } } := by
  simp [Entry.ticked, hd, hs, Descriptor.isDeadline, hk, Entry.lapsesAtTick_eq hs hd hk, hr, hspared]

theorem Entry.ticked_deadline_counts (hs : e.state = .armed) (hd : e.desc = some d) (hk : d.kind = .deadline)
    (hr : 1 < e.rt.remaining) (now : TickCount) :
    e.ticked now = { e with rt := { e.rt with remaining := e.rt.remaining - 1, spared := false } } := by
  have hmax : max 1 (e.rt.remaining - 1) = e.rt.remaining - 1 := max_eq_right (Nat.le_sub_one_of_lt hr)
  simp [Entry.ticked, hd, hs, Descriptor.isDeadline, hk, Entry.lapsesAtTick_eq hs hd hk, Nat.not_le.mpr hr, hmax]

/-- R49, log 18: a spared entry of reload 1 stays at 1. -/
theorem Entry.ticked_deadline_spared (hs : e.state = .armed) (hd : e.desc = some d) (hk : d.kind = .deadline)
    (hr : e.rt.remaining = 1) (hspared : e.rt.spared = true) (now : TickCount) :
    e.ticked now = { e with rt := { e.rt with spared := false } } := by
  simp [Entry.ticked, hd, hs, Descriptor.isDeadline, hk, Entry.lapsesAtTick_eq hs hd hk, hr, hspared]

theorem Entry.opensWindowAtTick_eq (hs : e.state = .armed) (hd : e.desc = some d) (hk : d.kind = .count)
    (hm : d.countMode = .rate) : e.opensWindowAtTick = decide (e.rt.windowLeft ≤ 1) := by
  simp [Entry.opensWindowAtTick, hs, hd, Descriptor.isRate, hk, hm]

theorem Entry.ticked_rate_counts (hs : e.state = .armed) (hd : e.desc = some d) (hk : d.kind = .count)
    (hm : d.countMode = .rate) (hw : 1 < e.rt.windowLeft) (now : TickCount) :
    e.ticked now = { e with rt := { e.rt with windowLeft := e.rt.windowLeft - 1 } } := by
  simp [Entry.ticked, hd, hs, Descriptor.isDeadline, Descriptor.isRate, hk, hm, Entry.opensWindowAtTick_eq hs hd hk hm,
    Nat.not_le.mpr hw]

theorem Entry.ticked_rate_opens (hs : e.state = .armed) (hd : e.desc = some d) (hk : d.kind = .count)
    (hm : d.countMode = .rate) (hw : e.rt.windowLeft = 1) (now : TickCount) :
    e.ticked now = { e with rt := { e.rt with
      allowance := d.reload.toNat, windowLeft := d.window.toNat, windowTripped := false, excess := 0 } } := by
  simp [Entry.ticked, hd, hs, Descriptor.isDeadline, Descriptor.isRate, hk, hm, Entry.opensWindowAtTick_eq hs hd hk hm, hw]

/-- Entries without a count of ticks are left. -/
theorem Entry.ticked_of_uncounted (hd : e.desc = some d) (hk : d.kind = .condition ∨ d.kind = .count ∧ d.countMode = .total)
    (now : TickCount) : e.ticked now = e := by
  rcases hk with hk | ⟨hk, hm⟩
  · simp [Entry.ticked, hd, Descriptor.isDeadline, Descriptor.isRate, hk]
  · simp [Entry.ticked, hd, Descriptor.isDeadline, Descriptor.isRate, hk, hm]

theorem Entry.ticked_of_not_armed (hs : e.state ≠ .armed) (now : TickCount) : e.ticked now = e := by
  unfold Entry.ticked
  split
  · rfl
  · rw [if_neg hs]

end Entry

section Class
variable {k : ClassState}

theorem ClassState.ticked_of_no_pulse (h : k.pulse = 0) : k.ticked = k := if_neg (by omega)

/-- R145: a pulse that goes on leaves the line of a sound class asserted. -/
theorem ClassState.ticked_of_lasting (hk : k.sound) (h : 1 < k.pulse) : k.ticked = { k with pulse := k.pulse - 1 } := by
  obtain ⟨hline, hmode, -⟩ := hk
  have hstrobe : k.mode = .strobe := (hmode.resolve_right (by omega)).2
  have hasserted : k.line = true := by simpa [ClassState.lineValue, hstrobe, Nat.lt_of_succ_lt h] using hline
  rw [ClassState.ticked, if_pos (Nat.lt_of_succ_lt h)]
  simp [ClassState.drive, ClassState.lineValue, hstrobe, hasserted, h]

theorem ClassState.ticked_of_last (hk : k.sound) (h : k.pulse = 1) :
    k.ticked = { k with pulse := 0, line := false } := by
  have hstrobe : k.mode = .strobe := (hk.2.1.resolve_right (by omega)).2
  simp [ClassState.ticked, ClassState.drive, ClassState.lineValue, hstrobe, h]

end Class

/-- Settles O30: one equation for each row of an entry's and a class's tick. -/
theorem tickMovesCountsDown : Obligations.TickMovesCountsDown := by
  refine ⟨fun e d now _ hd hs => ⟨fun hk hr => ?_, fun hk hr hspared => ?_, fun hk hr hspared => ?_, fun hk hm hw => ?_,
    fun hk hm hw => ?_, fun hk => Entry.ticked_of_uncounted hd hk now⟩, fun e now h => Entry.ticked_of_not_armed h now,
    fun k hk => ⟨ClassState.ticked_of_no_pulse, ClassState.ticked_of_lasting hk, ClassState.ticked_of_last hk⟩⟩
  · exact Entry.ticked_deadline_counts hs hd hk hr now
  · exact Entry.ticked_deadline_spared hs hd hk hr hspared now
  · exact Entry.ticked_deadline_lapses hs hd hk hr hspared now
  · exact Entry.ticked_rate_counts hs hd hk hm hw now
  · exact Entry.ticked_rate_opens hs hd hk hm hw now

/-! ## The ticks named by their outcome (log 4) -/

section Named
variable {s : State} {i : Nat} {d : Descriptor} {order : TickOrder}

theorem exec_deadlineLapse (hp : s.power ≠ .powerUpReset) (hm : s.mode = .monitoring) :
    exec (.deadlineLapse i order) s =
      .next (if (s.entry i).lapsesAtTick then s.quiet.tickOnce order else s.quiet) := by
  cases h : (s.entry i).lapsesAtTick <;> simp [exec, execDeadlineLapse, State.clocked, hp, hm, h]

theorem exec_rateWindowOpens (hp : s.power ≠ .powerUpReset) (hm : s.mode = .monitoring)
    (h : (s.entry i).opensWindowAtTick = true) :
    exec (.rateWindowOpens i order) s = .next (s.quiet.tickOnce order) := by
  simp [exec, execRateWindowOpens, State.clocked, hp, hm, h]

theorem exec_strobePulseEnd (hp : s.power ≠ .powerUpReset) (c : ClassNo) :
    exec (.strobePulseEnd c order) s =
      .next (if s.pulseAtTick c order = 1 then s.quiet.tickOnce order else s.quiet) := by
  by_cases h : s.pulseAtTick c order = 1 <;> simp [exec, execStrobePulseEnd, State.clocked, hp, h]

theorem State.entry_ne_empty (h : (s.entry i).desc = some d) : i < s.entries.length := by
  by_contra hi
  rw [State.entry, entryAt_eq_empty (Nat.le_of_not_lt hi)] at h
  cases h

/-- The lapses of a tick are those of the entries that the tick lapses (R108). -/
theorem mem_lapseEvents {es : List Entry} {now : TickCount} {ev : Event} :
    ev ∈ lapseEvents es now ↔ ∃ i, i < es.length ∧ (entryAt es i).lapsesAtTick = true ∧
      ev = { kind := .deadlineLapsed, cls := (entryAt es i).cls, tick := now, entry := some i } := by
  simp only [lapseEvents, mem_collectFrom, Nat.zero_add]
  constructor
  · rintro ⟨k, hk, h⟩
    rw [← entryAt_eq_getElem hk] at h
    cases hl : (entryAt es k).lapsesAtTick with
    | false => simp [hl] at h
    | true => exact ⟨k, hk, hl, by simpa [hl] using h⟩
  · rintro ⟨k, hk, hl, rfl⟩
    exact ⟨k, hk, by simp [← entryAt_eq_getElem hk, hl]⟩

theorem Entry.cls_eq {e : Entry} (h : e.desc = some d) : e.cls = d.cls := by simp [Entry.cls, h]

/-- The alert unit as a tick finds it, in the words of the claim. -/
theorem State.pulseAtTick_eq (s : State) (c : ClassNo) (order : TickOrder) :
    s.pulseAtTick c order =
      ((match order with
        | .alertFirst => s
        | .recordsFirst => s.raise s.countTick.tickEvents).alerts.get c).pulse := by
  cases order
  · rfl
  · exact congrArg (fun a : AlertUnit => (a.get c).pulse) (State.raise_alerts_congr (s := s.countTick) (t := s) rfl rfl _)

/-- A sound class whose pulse stands at 1 releases its line as it counts the tick; a class that stands at 1 by a start just
made is in STROBE mode too, so that soundness is asked of the state before alone. -/
theorem ClassState.ticked_of_one_strobe {k : ClassState} (hmode : k.mode = .strobe) (h : k.pulse = 1) :
    k.ticked.pulse = 0 ∧ k.ticked.line = false := by
  simp [ClassState.ticked, ClassState.drive, ClassState.lineValue, hmode, h]

end Named

/-- A class is in STROBE mode with the mask OPEN, or no pulse of it runs (R143). -/
def ClassState.PulseSound (k : ClassState) : Prop := k.maskOpen = true ∧ k.mode = .strobe ∨ k.pulse = 0

theorem ClassState.PulseSound.startPulse {k : ClassState} (h : k.PulseSound) : k.startPulse.PulseSound := by
  unfold ClassState.startPulse
  split
  · next hb => exact .inl (by simpa using hb)
  · exact h

/-- A change of the alert unit keeps that of every class. -/
theorem AlertUnit.change_pulseSound {a : AlertUnit} (ch : AlertChange) {c : ClassNo} (h : (a.get c).PulseSound) :
    ((a.change ch).get c).PulseSound := by
  cases ch <;> simp only [AlertUnit.change, AlertUnit.get_set] <;> split
  case appended.isTrue hc => subst hc; exact ClassState.PulseSound.startPulse (k := { a.get _ with count := _ }) h
  case marked.isTrue hc => subst hc; exact ClassState.PulseSound.startPulse (k := { a.get _ with missed := _ }) h
  case removed.isTrue hc => subst hc; exact h
  all_goals exact h

theorem AlertUnit.changes_pulseSound (chs : List AlertChange) {a : AlertUnit} {c : ClassNo} (h : (a.get c).PulseSound) :
    ((chs.foldl AlertUnit.change a).get c).PulseSound := by
  induction chs generalizing a with
  | nil => exact h
  | cons ch chs ih => exact ih (AlertUnit.change_pulseSound ch h)

theorem State.raise_pulseSound {s : State} {c : ClassNo} (h : (s.alerts.get c).PulseSound) (evs : List Event) :
    ((s.raise evs).alerts.get c).PulseSound := by
  induction evs generalizing s with
  | nil => exact h
  | cons ev evs ih =>
    refine ih ?_
    simp only [State.raiseOne_alerts, AlertUnit.take, AlertUnit.get_mapAll]
    exact AlertUnit.changes_pulseSound _ h

/-- Settles O31: each named tick is the tick whose outcome its name gives; the pulse by the class as the tick finds it. -/
theorem namedTickBringsItsOutcome : Obligations.NamedTickBringsItsOutcome := by
  intro s i d c order hp
  refine ⟨fun hm hs hd hk hr hspared => ?_, fun hm hs hd hk hr hspared => ?_, fun hm hs hd hk hmode hw => ?_, ?_⟩
  · have hl : (s.entry i).lapsesAtTick = true := by simp [Entry.lapsesAtTick_eq hs hd hk, hr, hspared]
    refine ⟨s.quiet.tickOnce order, by rw [exec_deadlineLapse hp hm, if_pos hl], exec_tick hp order, ?_⟩
    have he : (s.quiet.tickOnce order).entry i = (s.entry i).ticked (s.time.tickCounter + 1) := by
      rw [State.entry_tickOnce, if_pos (show s.quiet.mode = .monitoring from hm)]; rfl
    rw [he, Entry.ticked_deadline_lapses hs hd hk hr hspared, ← Entry.cls_eq hd]
    exact ⟨rfl, rfl, rfl, mem_lapseEvents.2 ⟨i, State.entry_ne_empty hd, hl, rfl⟩⟩
  · have hl : (s.entry i).lapsesAtTick = false := by simp [Entry.lapsesAtTick_eq hs hd hk, hspared]
    refine ⟨by rw [exec_deadlineLapse hp hm, hl]; rfl, _, exec_tick hp order, ?_, fun ev hev => ?_⟩
    · rw [State.entry_tickOnce, if_pos (show s.quiet.mode = .monitoring from hm)]
      exact Entry.ticked_deadline_spared hs hd hk hr hspared _
    · obtain ⟨j, -, hj, rfl⟩ := mem_lapseEvents.1 hev
      rintro hji
      cases Option.some.inj hji
      rw [State.entry] at hl
      exact Bool.false_ne_true (hl.symm.trans hj)
  · have ho : (s.entry i).opensWindowAtTick = true := by simp [Entry.opensWindowAtTick_eq hs hd hk hmode, hw]
    refine ⟨_, exec_rateWindowOpens hp hm ho, exec_tick hp order, ?_⟩
    have he : (s.quiet.tickOnce order).entry i = (s.entry i).ticked (s.time.tickCounter + 1) := by
      rw [State.entry_tickOnce, if_pos (show s.quiet.mode = .monitoring from hm)]; rfl
    rw [he, Entry.ticked_rate_opens hs hd hk hmode hw]
    exact ⟨rfl, hs⟩
  · intro events found counted
    have hpulse : s.pulseAtTick c order = (found.alerts.get c).pulse := s.pulseAtTick_eq c order
    refine ⟨fun h1 => ⟨fun hsound => ?_, _, ?_, exec_tick hp order, ?_⟩, fun h1 => ?_⟩
    · have hfound : (found.alerts.get c).PulseSound := by
        cases order
        · exact hsound.2.1
        · exact State.raise_pulseSound hsound.2.1 events
      simp only [counted, AlertUnit.get_mapAll]
      exact ClassState.ticked_of_one_strobe (hfound.resolve_right (by omega)).2 h1
    · rw [exec_strobePulseEnd hp, if_pos (hpulse.trans h1)]
    · cases order
      · rw [State.tickOnce_alerts_alertFirst]
        exact State.raise_alerts_congr (by rfl) (by rfl) _
      · rw [State.tickOnce_alerts_recordsFirst]
        exact congrArg AlertUnit.ticked (State.raise_alerts_congr (by rfl) (by rfl) _)
    · rw [exec_strobePulseEnd hp, if_neg fun h => h1 (hpulse.symm.trans h)]
      rfl

end Sys2Proof.Machine
end

section
/-! The REFCLK monitor and the divider (R97 to R102, R105), what every step keeps of the time base, and which steps can change
the part mode and the tick counter. -/

namespace Sys2Proof.Machine

/-! ## The expiry of the gap count (R100, R102) -/

/-- From RUNNING with REFCLK selected the source falls back. -/
theorem State.gapExpires_of_refclk {s : State} (hm : s.time.monitor = .running) (hs : s.time.source = .refclk) :
    s.gapExpires =
      { s with
        time := { s.time with source := .irc, dividerCount := 0, monitor := .lost, gap := 64, run := 0 }
        queue := (s.raise [s.partEvent .timebaseFallback none none]).queue
        alerts := (s.raise [s.partEvent .timebaseFallback none none]).alerts } := by
  simp only [State.gapExpires, hm, hs, and_self, if_true, State.fallBack]
  rw [State.raise_frame]
  rfl

theorem State.gapExpires_of_other {s : State} (h : ¬(s.time.monitor = .running ∧ s.time.source = .refclk)) :
    s.gapExpires = { s with time := { s.time with monitor := .lost, gap := 64, run := 0 } } := by
  simp only [State.gapExpires, if_neg h]

theorem exec_gapCountExpiry {s : State} (hp : s.power ≠ .powerUpReset) (hg : s.time.gap < 64) :
    exec .gapCountExpiry s = .next s.quiet.gapExpires := by
  simp [exec, execGapCountExpiry, State.clocked, hp, hg]

/-- Settles O32: the two cases of the expiry. -/
theorem gapCountExpiryDeclaresLost : Obligations.GapCountExpiryDeclaresLost := by
  intro s hp hg
  rw [exec_gapCountExpiry hp hg]
  refine ⟨fun h => ?_, fun hm hs => ?_⟩
  · rw [State.gapExpires_of_other (s := s.quiet) h]
    rfl
  · rw [State.gapExpires_of_refclk (s := s.quiet) hm hs]
    rfl

/-! ## An edge of REFCLK (R101) -/

section Edge
variable {t : TimeBase}

@[simp] theorem TimeBase.edge_gap (t : TimeBase) : t.edge.gap = 0 := by
  unfold TimeBase.edge
  split
  · rfl
  · dsimp only; split <;> split <;> rfl

/-- The edge reaches the monitor's three fields alone. -/
theorem TimeBase.edge_frame (t : TimeBase) :
    t.edge = { t with monitor := t.edge.monitor, gap := t.edge.gap, run := t.edge.run } := by
  unfold TimeBase.edge
  split
  · rfl
  · dsimp only; split <;> split <;> rfl

theorem TimeBase.edge_of_running (h : t.monitor = .running) : t.edge = { t with gap := 0 } := by
  simp only [TimeBase.edge, h]

/-- The run that an edge makes in LOST: it grows below a gap of 64 and begins anew at 64. -/
def TimeBase.nextRun (t : TimeBase) : Nat := if t.gap < 64 then t.run + 1 else 1

theorem TimeBase.edge_of_lost (h : t.monitor = .lost) :
    t.edge =
      if t.nextRun = 16 then { t with gap := 0, run := 0, monitor := .running }
      else { t with gap := 0, run := t.nextRun } := by
  simp only [TimeBase.edge, h]
  rfl

@[simp] theorem TimeBase.edge_source (t : TimeBase) : t.edge.source = t.source := by rw [TimeBase.edge_frame]
@[simp] theorem TimeBase.edge_divisor (t : TimeBase) : t.edge.divisor = t.divisor := by rw [TimeBase.edge_frame]

end Edge

theorem State.sourcePeriod_divisor (s : State) (order : TickOrder) :
    (s.sourcePeriod order).time.divisor = s.time.divisor := by rw [s.sourcePeriod_time_frame]

section RefclkEdge
variable {s : State}

theorem State.refclkEdge_of_irc (h : s.time.source = .irc) (order : TickOrder) :
    s.refclkEdge order = { s with time := s.time.edge } := by
  simp [State.refclkEdge, h]

theorem State.refclkEdge_of_refclk (h : s.time.source = .refclk) (order : TickOrder) :
    s.refclkEdge order = State.sourcePeriod { s with time := s.time.edge } order := by
  simp [State.refclkEdge, h]

/-- The monitor, the source and the divisor at an edge of REFCLK, whether or not it is a source period. -/
theorem State.refclkEdge_monitor (s : State) (order : TickOrder) :
    (s.refclkEdge order).time.gap = 0 ∧ (s.refclkEdge order).time.run = s.time.edge.run ∧
      (s.refclkEdge order).time.monitor = s.time.edge.monitor ∧
      (s.refclkEdge order).time.source = s.time.source ∧ (s.refclkEdge order).time.divisor = s.time.divisor := by
  cases h : s.time.source with
  | irc => rw [State.refclkEdge_of_irc h]; simp [h]
  | refclk => rw [State.refclkEdge_of_refclk h]; simp [State.sourcePeriod_divisor, h]

end RefclkEdge

theorem exec_refclkRisingEdge {s : State} (hp : s.power ≠ .powerUpReset) (order : TickOrder) :
    exec (.refclkRisingEdge order) s = .next (s.quiet.refclkEdge order) := by
  simp [exec, execRefclkRisingEdge, State.clocked, hp]

/-- The IRC period after an edge counts the first of a new gap; the edge after the 63rd begins a new run. -/
theorem State.ircPeriod_gap_of_zero {s : State} (h : s.time.gap = 0) (order : TickOrder) :
    (s.ircPeriod order).time.gap = 1 := by
  have hcount := (State.ircPeriod_counts (s := s) (by omega) order).gap
  omega

theorem State.edge_after_last_period {s : State} (h : s.time.gap = 63) (order : TickOrder) :
    (s.ircPeriod order).time.edge.run = 1 ∧ (s.ircPeriod order).time.edge.monitor = .lost := by
  have hcount := State.ircPeriod_counts (s := s) (by omega) order
  obtain ⟨hlost, -⟩ := hcount.last h
  have hgap : (s.ircPeriod order).time.gap = 64 := by have := hcount.gap; omega
  rw [TimeBase.edge_of_lost hlost]
  simp [TimeBase.nextRun, hgap, hlost]

/-- Settles O34: the monitor by the edge in its two states, the rest by the source. -/
theorem refclkEdgeMovesTheMonitor : Obligations.RefclkEdgeMovesTheMonitor := by
  intro s order ⟨_, _, _, _, _, hrunning⟩ hp
  obtain ⟨hgap, hrun, hmonitor, hsource, hdivisor⟩ := s.quiet.refclkEdge_monitor order
  refine ⟨_, exec_refclkRisingEdge hp order, hgap, hsource, hdivisor, fun hm => ?_, fun hm => ⟨fun h16 => ?_, fun h16 => ?_⟩,
    fun hs => State.refclkEdge_of_irc (s := s.quiet) hs order, fun hs => State.refclkEdge_of_refclk (s := s.quiet) hs order,
    State.ircPeriod_gap_of_zero hgap order, fun h63 => State.edge_after_last_period h63 order⟩
  · rw [hmonitor, hrun, State.quiet_time, TimeBase.edge_of_running hm]
    exact ⟨hm, (hrunning hm).2⟩
  · rw [hmonitor, hrun, State.quiet_time, TimeBase.edge_of_lost hm, if_pos (show s.time.nextRun = 16 from h16)]
    exact ⟨rfl, rfl⟩
  · rw [hmonitor, hrun, State.quiet_time, TimeBase.edge_of_lost hm, if_neg (show s.time.nextRun ≠ 16 from h16)]
    exact ⟨hm, rfl⟩

/-! ## The divider (R97, R98) -/

section Divider
variable {s : State} {order : TickOrder}

theorem State.sourcePeriod_counts (h : s.time.dividerCount + 1 < s.time.divisor.toNat) :
    s.sourcePeriod order = { s with time := { s.time with dividerCount := s.time.dividerCount + 1 } } :=
  if_neg (by omega)

theorem State.sourcePeriod_ticks (h : s.time.divisor.toNat ≤ s.time.dividerCount + 1) :
    s.sourcePeriod order = s.tickOnce order :=
  if_pos h

/-- From a restarted divider, k periods before the divisor-th are k in the divider count. -/
theorem State.sourcePeriods_count (h : s.time.dividerCount = 0) (k : Nat) (hk : k < s.time.divisor.toNat) :
    (fun x : State => x.sourcePeriod order)^[k] s = { s with time := { s.time with dividerCount := k } } := by
  induction k with
  | zero =>
    show s = { s with time := { s.time with dividerCount := 0 } }
    rw [← h]
  | succ k ih =>
    rw [Function.iterate_succ_apply', ih (by omega)]
    exact State.sourcePeriod_counts (s := { s with time := { s.time with dividerCount := k } }) hk

/-- The divisor-th of them is a tick. -/
theorem State.sourcePeriods_tick (h : s.time.dividerCount = 0) (hd : 1 ≤ s.time.divisor.toNat) :
    ((fun x : State => x.sourcePeriod order)^[s.time.divisor.toNat] s).time =
      { s.time with tickCounter := s.time.tickCounter + 1 } := by
  obtain ⟨k, hk⟩ : ∃ k, s.time.divisor.toNat = k + 1 := ⟨s.time.divisor.toNat - 1, by omega⟩
  have hk' := State.sourcePeriods_count (order := order) h k (by omega)
  rw [hk, Function.iterate_succ_apply', hk',
    State.sourcePeriod_ticks (s := { s with time := { s.time with dividerCount := k } }) (by simp [hk]), State.tickOnce_time]
  simp [← h]

end Divider

/-- Settles O35: the divider by its count, an IRC period by its source period and its gap count. -/
theorem tickEveryDivisorPeriods : Obligations.TickEveryDivisorPeriods := by
  intro s order ⟨hrefclk, hdivisor, _, _, _, _⟩
  refine ⟨State.sourcePeriod_counts, fun h => State.sourcePeriod_ticks h.ge, fun h0 => ⟨fun k hk => ?_, ?_, ?_⟩,
    fun hs hg => ?_, fun hs hg => ?_, fun hs hg => ?_, fun hs hg => ?_, fun hs hg hp => ?_⟩
  · show ((fun x : State => x.sourcePeriod order)^[k] s).time.tickCounter = _
    rw [State.sourcePeriods_count h0 k hk]
  · show ((fun x : State => x.sourcePeriod order)^[s.time.divisor.toNat] s).time.tickCounter = _
    rw [State.sourcePeriods_tick h0 hdivisor]
  · show ((fun x : State => x.sourcePeriod order)^[s.time.divisor.toNat] s).time.dividerCount = _
    rw [State.sourcePeriods_tick h0 hdivisor]
    exact h0
  · rw [State.ircPeriod_of_irc hs, State.countGap_of_lt (by simpa using hg), State.sourcePeriod_gap]
  · rw [State.ircPeriod_of_irc hs, State.countGap_of_last (by simpa using hg), State.gapExpires_of_irc (by simpa using hs)]
  · rw [State.ircPeriod_of_irc hs, State.countGap_of_full (by simpa using hg)]
  · rw [State.ircPeriod_of_refclk hs, State.countGap_of_lt hg]
  · have hm := hrefclk hs
    rw [State.ircPeriod_of_refclk hs, State.countGap_of_last hg, exec_gapCountExpiry hp (by omega),
      State.gapExpires_of_refclk (s := s.quiet) hm hs, State.gapExpires_of_refclk hm hs]
    rfl

/-! ## The time base is kept sound -/

/-- R96, R100 to R102: what `State.timeSound` asks, of the time base alone. -/
structure TimeBase.Sound (t : TimeBase) : Prop where
  source : t.source = .refclk → t.monitor = .running
  divisor : 1 ≤ t.divisor.toNat
  count : t.dividerCount < t.divisor.toNat
  gap : t.gap ≤ 64
  run : t.run < 16
  running : t.monitor = .running → t.gap < 64 ∧ t.run = 0

theorem State.timeSound_iff (s : State) : s.timeSound ↔ s.time.Sound :=
  ⟨fun ⟨h1, h2, h3, h4, h5, h6⟩ => ⟨h1, h2, h3, h4, h5, h6⟩,
    fun ⟨h1, h2, h3, h4, h5, h6⟩ => ⟨h1, h2, h3, h4, h5, h6⟩⟩

theorem TimeBase.reset_sound : TimeBase.reset.Sound :=
  ⟨nofun, by decide, by decide, by decide, by decide, nofun⟩

theorem TimeBase.Sound.edge {t : TimeBase} (h : t.Sound) : t.edge.Sound := by
  cases hm : t.monitor with
  | running =>
    rw [TimeBase.edge_of_running hm]
    exact { h with gap := Nat.zero_le _, running := fun _ => ⟨Nat.zero_lt_succ 63, (h.running hm).2⟩ }
  | lost =>
    have hirc : t.source ≠ .refclk := fun hs => by simp [h.source hs] at hm
    rw [TimeBase.edge_of_lost hm]
    split
    · exact { h with
        source := fun _ => rfl, gap := Nat.zero_le _, run := Nat.zero_lt_succ 15, running := fun _ => ⟨Nat.zero_lt_succ 63, rfl⟩ }
    · next h16 =>
      have hrun : t.nextRun ≤ 16 := by
        have := h.run
        unfold TimeBase.nextRun
        split <;> omega
      exact { h with
        gap := Nat.zero_le _, run := lt_of_le_of_ne hrun h16
        running := fun hr => absurd (hm.symm.trans hr) (by decide) }

theorem State.sourcePeriod_sound {s : State} (h : s.time.Sound) (order : TickOrder) :
    (s.sourcePeriod order).time.Sound := by
  unfold State.sourcePeriod
  split
  · rw [State.tickOnce_time]
    exact { h with count := h.divisor }
  · next hc => exact { h with count := Nat.lt_of_not_le hc }

theorem State.gapExpires_sound {s : State} (h : s.time.Sound) : s.gapExpires.time.Sound := by
  by_cases hf : s.time.monitor = .running ∧ s.time.source = .refclk
  · rw [State.gapExpires_of_refclk hf.1 hf.2]
    exact ⟨nofun, h.divisor, h.divisor, Nat.le_refl _, Nat.zero_lt_succ 15, nofun⟩
  · rw [State.gapExpires_of_other hf]
    exact ⟨fun hs => absurd ⟨h.source hs, hs⟩ hf, h.divisor, h.count, Nat.le_refl _, Nat.zero_lt_succ 15, nofun⟩

theorem State.countGap_sound {s : State} (h : s.time.Sound) : s.countGap.time.Sound := by
  unfold State.countGap
  split
  · next hg =>
    exact { h with
      gap := by show s.time.gap + 1 ≤ 64; omega
      running := fun hm => ⟨by show s.time.gap + 1 < 64; omega, (h.running hm).2⟩ }
  · split
    · exact State.gapExpires_sound h
    · exact h

theorem State.ircPeriod_sound {s : State} (h : s.time.Sound) (order : TickOrder) : (s.ircPeriod order).time.Sound := by
  rw [State.ircPeriod_eq]
  split
  · exact State.countGap_sound (State.sourcePeriod_sound h order)
  · exact State.countGap_sound h

theorem State.refclkEdge_sound {s : State} (h : s.time.Sound) (order : TickOrder) : (s.refclkEdge order).time.Sound := by
  cases hs : s.time.source with
  | irc => rw [State.refclkEdge_of_irc hs]; exact h.edge
  | refclk => rw [State.refclkEdge_of_refclk hs]; exact State.sourcePeriod_sound h.edge order

theorem TimeBase.Sound.select {t : TimeBase} (h : t.Sound) {source : Source} {divisor : BitVec 16}
    (hd : divisorAllowed source divisor = true) (hm : source = .refclk → t.monitor = .running) :
    (t.select source divisor).Sound := by
  have hpos : 1 ≤ divisor.toNat := by
    cases source <;> simp only [divisorAllowed, decide_eq_true_eq] at hd <;> omega
  exact { h with source := hm, divisor := hpos, count := hpos }

/-- Of what a request performs, SET TIMEBASE alone reaches the time base. -/
theorem Performed.time {s u : State} {c : Instr} {r : Reply} (h : Performed s c u r) :
    u.time = s.time ∨ ∃ source divisor, divisorAllowed source divisor = true ∧
      (source = .refclk → s.time.monitor = .running) ∧ u.time = s.time.select source divisor := by
  cases h
  case selected p source divisor hd hm reply => exact .inr ⟨source, divisor, hd, hm, rfl⟩
  case armedFetching | resynced => left; rw [State.settle_time, State.beginFetch_frame]
  case armed | armedPending | disarmed | clearedWatching => left; rw [State.settle_time]; rfl
  case suspended | resumed => left; rw [State.settle_time]
  all_goals exact .inl rfl

theorem Effect.timeSound {s t : State} {c : Instr} (hs : s.time.Sound) (h : Effect s c t) : t.time.Sound := by
  cases h
  case powerUp => exact TimeBase.reset_sound
  case answered => rw [State.answered_frame]; exact hs
  case srstnFall => rw [State.takeSrstnFall_frame, State.answered_frame]; exact hs
  case srstnRise => rw [State.takeSrstnRise_time, State.answered_frame]; exact hs
  case hostReset => rw [State.takeHrstnFall_frame]; exact hs
  case beatTaken => rw [State.takeBeat_frame, State.answered_frame]; exact hs
  case accessEnded => rw [State.endAccess_frame, State.answered_frame]; exact hs
  case ticked => rw [State.tickOnce_time]; exact { hs with count := hs.divisor }
  case gapExpired => exact State.gapExpires_sound (s := s.quiet) hs
  case refclkEdge order _ => exact State.refclkEdge_sound (s := s.quiet) hs order
  case csnRiseReset => rw [State.supervisorReset_frame]; exact hs
  case performed hu =>
    rw [State.respond_time]
    rcases hu.time with ht | ⟨source, divisor, hd, hm, ht⟩ <;> rw [ht]
    · exact hs
    · exact TimeBase.Sound.select hs hd hm
  all_goals exact hs

/-- The time base is kept sound by all that a step is made of. -/
theorem timeSound_invariant : StepInvariant fun s => s.time.Sound where
  dequeue _ _ h := h
  count _ _ h := h
  effect _ _ _ hs h := h.timeSound hs
  srstn s low h := by rw [State.sampleSrstn_frame]; exact h
  hrstn s low h := by rw [State.sampleHrstn_frame]; exact h
  period s h := by rw [State.bclkPeriod_frame]; exact h
  give s h := by rw [State.giveAnswer_frame]; exact h
  irc _ order h := State.ircPeriod_sound h order
  sckFalls _ h := h
  sckIgnored _ h := h
  sckSamples _ _ _ _ h := h

/-- Settles O7: the step keeps what all it is made of keeps. -/
theorem stepKeepsTimeSound : Obligations.StepKeepsTimeSound := by
  intro s t hs ht
  rw [State.timeSound_iff] at *
  exact timeSound_invariant.step hs ht

end Sys2Proof.Machine
end

section
/-! What the blocks of the part do does not depend on the pins, the link and the outputs: each of their operations may be done
before or after these three change. -/

namespace Sys2Proof.Machine

/-! ## The end of a fetch, case by case (R64, R65) -/

section EndFetch
variable {s : State} {q : FetchRequest} {rest : List FetchRequest}

theorem State.endFetch_of_empty (hl : s.port.list = []) (r : AccessEnd) : s.endFetch r = s := by
  simp only [State.endFetch, hl]

theorem State.endFetch_of_orphaned (hl : s.port.list = q :: rest) (ho : q.orphaned = true) (r : AccessEnd) :
    s.endFetch r = { s with port := { s.port with list := rest } } := by
  simp only [State.endFetch, hl, ho, if_true]

theorem State.endFetch_completed (hl : s.port.list = q :: rest) (ho : q.orphaned = false) (data : Word) :
    s.endFetch (.completion data) = State.armFetched { s with port := { s.port with list := rest } } q.entry data := by
  simp [State.endFetch, hl, ho]

theorem State.endFetch_memoryError (hl : s.port.list = q :: rest) (ho : q.orphaned = false) :
    s.endFetch .memoryError = State.failFetch { s with port := { s.port with list := rest } } q 1 := by
  simp [State.endFetch, hl, ho]

theorem State.endFetch_responseLimit (hl : s.port.list = q :: rest) (ho : q.orphaned = false) :
    s.endFetch .responseLimit = State.failFetch { s with port := { s.port with list := rest } } q 2 := by
  simp [State.endFetch, hl, ho]

end EndFetch

/-! ## Pins, link and outputs -/

/-- The state with other pins, another link and other outputs. -/
def State.withLink (s : State) (p : Pins) (l : Link) (o : Outputs) : State := { s with pins := p, link := l, out := o }

section WithLink
variable (s : State) (p : Pins) (l : Link) (o : Outputs)

@[simp] theorem State.withLink_power : (s.withLink p l o).power = s.power := rfl
@[simp] theorem State.withLink_pins : (s.withLink p l o).pins = p := rfl
@[simp] theorem State.withLink_mode : (s.withLink p l o).mode = s.mode := rfl
@[simp] theorem State.withLink_entries : (s.withLink p l o).entries = s.entries := rfl
@[simp] theorem State.withLink_checker : (s.withLink p l o).checker = s.checker := rfl
@[simp] theorem State.withLink_host : (s.withLink p l o).host = s.host := rfl
@[simp] theorem State.withLink_port : (s.withLink p l o).port = s.port := rfl
@[simp] theorem State.withLink_time : (s.withLink p l o).time = s.time := rfl
@[simp] theorem State.withLink_queue : (s.withLink p l o).queue = s.queue := rfl
@[simp] theorem State.withLink_alerts : (s.withLink p l o).alerts = s.alerts := rfl
@[simp] theorem State.withLink_link : (s.withLink p l o).link = l := rfl
@[simp] theorem State.withLink_out : (s.withLink p l o).out = o := rfl

@[simp] theorem State.withLink_raise (evs : List Event) :
    (s.withLink p l o).raise evs = (s.raise evs).withLink p l o := by
  induction evs generalizing s with
  | nil => rfl
  | cons ev evs ih => exact ih (s.raiseOne ev)

/-! ## The decision of a beat -/

@[simp] theorem State.withLink_dispose (d : Disposition) :
    (s.withLink p l o).dispose d = (s.dispose d).withLink p l o := by
  cases d <;> rfl

@[simp] theorem State.withLink_promote : (s.withLink p l o).promote = s.promote.withLink p l o := by
  cases h : s.checker <;> simp only [State.promote, State.withLink_checker, h]
  rfl

@[simp] theorem State.withLink_decideBeat (addr : Addr) (op : BeatOp) :
    (s.withLink p l o).decideBeat addr op = (s.decideBeat addr op).withLink p l o := by
  unfold State.decideBeat
  rw [← State.withLink_dispose, ← State.withLink_raise]
  rfl

@[simp] theorem State.withLink_examineBeat (b : Beat) :
    (s.withLink p l o).examineBeat b = (s.examineBeat b).withLink p l o := by
  cases hm : s.mode with
  | suspended =>
    rw [State.examineBeat_suspended b hm, State.examineBeat_suspended (s := s.withLink p l o) b hm, ← State.withLink_dispose]
    rfl
  | monitoring =>
    by_cases hb : blockingOf s.entries b.addr b.op.dir = []
    · rw [State.examineBeat_unblocked hm hb, State.examineBeat_unblocked (s := s.withLink p l o) hm hb,
        State.withLink_decideBeat]
    · rw [State.examineBeat_blocked hm hb, State.examineBeat_blocked (s := s.withLink p l o) hm hb,
        ← State.withLink_promote]
      rfl

@[simp] theorem State.withLink_examine : (s.withLink p l o).examine = s.examine.withLink p l o := by
  have hb : (s.withLink p l o).beatAtChecker = s.beatAtChecker := rfl
  cases h : s.beatAtChecker <;> simp only [State.examine, hb, h, State.withLink_examineBeat]

/-! ## The list and the arbiter -/

@[simp] theorem State.withLink_placeRequests (is : List Nat) :
    is.foldl State.placeRequest (s.withLink p l o) = (is.foldl State.placeRequest s).withLink p l o := by
  induction is generalizing s with
  | nil => rfl
  | cons i is ih => exact ih (s.placeRequest i)

@[simp] theorem State.withLink_fill : (s.withLink p l o).fill = s.fill.withLink p l o := by
  have hpending : (s.withLink p l o).pendingInOrder = s.pendingInOrder := rfl
  unfold State.fill
  rw [hpending, State.withLink_placeRequests, State.withLink_promote, State.withLink_mode, State.withLink_port]
  cases s.mode <;> rfl

@[simp] theorem State.withLink_issueHead (k : GrantKind) :
    (s.withLink p l o).issueHead k = (s.issueHead k).withLink p l o := by
  cases h : s.port.list <;> simp only [State.issueHead, State.withLink_port, h]
  rfl

@[simp] theorem State.withLink_issueBeat : (s.withLink p l o).issueBeat = s.issueBeat.withLink p l o := by
  have hb : (s.withLink p l o).waitingBeat = s.waitingBeat := rfl
  cases h : s.waitingBeat <;> simp only [State.issueBeat, hb, h]
  rfl

@[simp] theorem State.withLink_grant : (s.withLink p l o).grant = s.grant.withLink p l o := by
  have hc : (s.withLink p l o).choice = s.choice := rfl
  simp only [State.grant, hc, State.withLink_port, State.withLink_issueHead, State.withLink_issueBeat]
  cases s.port.bus with
  | some a => rfl
  | none => cases s.choice with
    | none => rfl
    | some k => cases k <;> rfl

@[simp] theorem State.withLink_settle : (s.withLink p l o).settle = s.settle.withLink p l o := by
  simp only [State.settle, State.withLink_examine, State.withLink_fill, State.withLink_grant]

/-! ## The end of an access -/

@[simp] theorem State.withLink_beginFetch (i : Nat) :
    (s.withLink p l o).beginFetch i = (s.beginFetch i).withLink p l o := by
  have hr : (s.withLink p l o).hasRoom = s.hasRoom := rfl
  unfold State.beginFetch
  rw [hr]
  cases s.hasRoom <;> rfl

@[simp] theorem State.withLink_beginFetches (is : List Nat) :
    is.foldl State.beginFetch (s.withLink p l o) = (is.foldl State.beginFetch s).withLink p l o := by
  induction is generalizing s with
  | nil => rfl
  | cons i is ih => simp only [List.foldl_cons, State.withLink_beginFetch, ih]

@[simp] theorem State.withLink_returnToFetch (w : Addr) (op : BeatOp) :
    (s.withLink p l o).returnToFetch w op = (s.returnToFetch w op).withLink p l o := by
  cases op
  · rfl
  · exact State.withLink_beginFetches _ _ _ _ _

@[simp] theorem State.withLink_deliver (wanted : Bool) (a : HostAnswer) :
    (s.withLink p l o).deliver wanted a = (s.deliver wanted a).withLink p l o := by
  cases wanted <;> rfl

@[simp] theorem State.withLink_complete (addr : Addr) (op : BeatOp) (data : Word) :
    (s.withLink p l o).complete addr op data = (s.complete addr op data).withLink p l o := by
  unfold State.complete
  rw [← State.withLink_raise]
  rfl

@[simp] theorem State.withLink_failHost (wanted : Bool) (kind : EventKind) (addr : Addr) (op : BeatOp) :
    (s.withLink p l o).failHost wanted kind addr op = (s.failHost wanted kind addr op).withLink p l o := by
  unfold State.failHost
  rw [State.withLink_deliver, State.withLink_raise, State.withLink_returnToFetch]
  rfl

@[simp] theorem State.withLink_endHost (wanted : Bool) (addr : Addr) (op : BeatOp) (r : AccessEnd) :
    (s.withLink p l o).endHost wanted addr op r = (s.endHost wanted addr op r).withLink p l o := by
  cases r <;> simp only [State.endHost, State.withLink_complete, State.withLink_deliver, State.withLink_failHost]

@[simp] theorem State.withLink_failFetch (r : FetchRequest) (detail : BitVec 16) :
    (s.withLink p l o).failFetch r detail = (s.failFetch r detail).withLink p l o := by
  unfold State.failFetch
  rw [← State.withLink_raise]
  rfl

@[simp] theorem State.withLink_endFetch (r : AccessEnd) :
    (s.withLink p l o).endFetch r = (s.endFetch r).withLink p l o := by
  cases hl : s.port.list with
  | nil => rw [State.endFetch_of_empty hl, State.endFetch_of_empty (s := s.withLink p l o) hl]
  | cons q rest =>
    cases ho : q.orphaned with
    | true =>
      rw [State.endFetch_of_orphaned hl ho, State.endFetch_of_orphaned (s := s.withLink p l o) hl ho]
      rfl
    | false =>
      cases r with
      | completion data =>
        rw [State.endFetch_completed hl ho, State.endFetch_completed (s := s.withLink p l o) hl ho]
        rfl
      | memoryError =>
        rw [State.endFetch_memoryError hl ho, State.endFetch_memoryError (s := s.withLink p l o) hl ho,
          ← State.withLink_failFetch]
        rfl
      | responseLimit =>
        rw [State.endFetch_responseLimit hl ho, State.endFetch_responseLimit (s := s.withLink p l o) hl ho,
          ← State.withLink_failFetch]
        rfl

@[simp] theorem State.withLink_endAccess (r : AccessEnd) :
    (s.withLink p l o).endAccess r = (s.endAccess r).withLink p l o := by
  cases hb : s.port.bus with
  | none => rw [State.endAccess_of_free hb, State.endAccess_of_free (s := s.withLink p l o) hb]
  | some a =>
    rw [State.endAccess_eq hb, State.endAccess_eq (s := s.withLink p l o) hb, ← State.withLink_settle]
    congr 1
    unfold State.afterAccess
    cases a.owner
    · exact State.withLink_endHost { s with port := _ } _ _ _ _ _ _ _
    · exact State.withLink_endFetch { s with port := _ } _ _ _ _
    · rfl

end WithLink

/-- Other pins alone. -/
theorem State.withLink_of_pins (s : State) (p : Pins) : { s with pins := p } = s.withLink p s.link s.out := rfl

theorem State.endAccess_pins (s : State) (p : Pins) (r : AccessEnd) :
    State.endAccess { s with pins := p } r = { s.endAccess r with pins := p } := by
  rw [State.withLink_of_pins, State.withLink_endAccess, State.endAccess_frame]
  rfl

end Sys2Proof.Machine
end

section
/-! A step with no command waiting (log 2), and what can change the part mode and the tick counter. -/

namespace Sys2Proof.Machine

/-! ## The answer of an edge -/

/-- An edge answers a next state and leaves the queue of commands and the counter of idle steps. -/
theorem State.passEdge_answers (s : State) (e : ClockEdge) :
    ∃ t, s.passEdge e = .next t ∧ t.pending = s.pending ∧ t.idles = s.idles := by
  cases e with
  | bclk a b order =>
    refine ⟨_, rfl, State.bclkEdge_keeps (P := fun u => u.pending = s.pending ∧ u.idles = s.idles)
      (fun u low hu => ?_) (fun u low hu => ?_) (fun u hu => ?_) (fun u hu => ?_) ⟨rfl, rfl⟩ a b order⟩
    · rw [State.sampleSrstn_frame]; exact hu
    · rw [State.sampleHrstn_frame]; exact hu
    · rw [State.bclkPeriod_frame]; exact hu
    · rw [State.giveAnswer_frame]; exact hu
  | sck sdi =>
    simp only [State.passEdge, State.sckEdge]
    split
    · exact ⟨_, rfl, rfl, rfl⟩
    · rcases s.sckRises_cases sdi with h | h | h
      · exact ⟨_, h, rfl, rfl⟩
      · exact ⟨_, h, rfl, rfl⟩
      · obtain ⟨t, ht, heffect⟩ := exec_answers (s.link.byteCommand (byteOfBits (s.link.bits ++ [sdi]))) s
        exact ⟨t, h.trans ht, heffect.waiting⟩
  | irc order =>
    refine ⟨_, rfl, ?_⟩
    split
    · rw [State.ircPeriod_frame]; exact ⟨rfl, rfl⟩
    · exact ⟨rfl, rfl⟩

/-! ## An edge of BCLK at which no reset pin is taken (R190) -/

/-- The state with these levels as the latest samples of SRSTN and HRSTN. -/
def State.sampled (s : State) (a b : Bool) : State :=
  { s with pins := { s.pins with srstnSample := a, hrstnSample := b } }

/-- The edge of BCLK takes no change of SRSTN that it finds at this level. -/
def Pins.SrstnSteady (p : Pins) (low : Bool) : Prop := low ≠ p.srstnSample ∨ low = p.srstnLow

/-- The edge of BCLK takes no change of HRSTN that it finds at this level. -/
def Pins.HrstnSteady (p : Pins) (low : Bool) : Prop := low ≠ p.hrstnSample ∨ low = p.hrstnLow

section Steady
variable {s : State} {a b : Bool}

theorem State.sampleSrstn_steady (h : s.pins.SrstnSteady a) : s.sampleSrstn a = s.sampled a s.pins.hrstnSample :=
  State.sampleSrstn_of_steady h

theorem State.sampleHrstn_steady (h : s.pins.HrstnSteady b) : s.sampleHrstn b = s.sampled s.pins.srstnSample b :=
  State.sampleHrstn_of_steady h

/-- A period leaves the reset pins. -/
theorem State.bclkPeriod_resetPins (s : State) :
    s.bclkPeriod.pins.srstnLow = s.pins.srstnLow ∧ s.bclkPeriod.pins.srstnSample = s.pins.srstnSample ∧
      s.bclkPeriod.pins.hrstnLow = s.pins.hrstnLow ∧ s.bclkPeriod.pins.hrstnSample = s.pins.hrstnSample := by
  cases hp : s.power with
  | powerUpReset => simp only [State.bclkPeriod, hp, and_self]
  | initialising n =>
    simp only [State.bclkPeriod, hp]
    split <;> exact ⟨rfl, rfl, rfl, rfl⟩
  | running =>
    rw [(State.bclkPeriod_of_running hp).2]
    exact ⟨rfl, rfl, rfl, rfl⟩

/-- A period and the samples may come in either order. -/
theorem State.bclkPeriod_sampled (s : State) (a b : Bool) : (s.sampled a b).bclkPeriod = s.bclkPeriod.sampled a b := by
  cases hp : s.power with
  | powerUpReset => simp only [State.bclkPeriod, State.sampled, hp]
  | initialising n =>
    simp only [State.bclkPeriod, State.sampled, hp]
    split <;> rfl
  | running =>
    rcases State.bclkPeriod_cases hp with ⟨hb, hs⟩ | ⟨x, hb, ⟨hx, hs⟩ | ⟨hx, hs⟩⟩ <;> rw [hs]
    · simp only [State.bclkPeriod, State.sampled, hp, hb]
    · simp only [State.bclkPeriod, State.sampled, hp, hb, if_pos hx]
    · have hend := s.endAccess_pins { s.pins with srstnSample := a, hrstnSample := b } .responseLimit
      have hpins : (s.endAccess .responseLimit).pins = s.pins := by rw [State.endAccess_frame]
      simp only [State.sampled, hpins, ← hend, State.bclkPeriod, hp, hb, if_neg (Nat.not_lt.mpr hx)]

/-- In every order the works of such an edge come to its period and the two samples. -/
theorem State.edgeWorks_steady (ha : s.pins.SrstnSteady a) (hb : s.pins.HrstnSteady b) (order : Fin 6) :
    (edgeOrder order).foldl (State.edgeWork a b) s = s.bclkPeriod.sampled a b := by
  obtain ⟨h1, h2, h3, h4⟩ := s.bclkPeriod_resetPins
  have ha' : s.bclkPeriod.pins.SrstnSteady a := by rwa [Pins.SrstnSteady, h1, h2]
  have hb' : s.bclkPeriod.pins.HrstnSteady b := by rwa [Pins.HrstnSteady, h3, h4]
  have hsr : s.sampleSrstn a = s.sampled a s.pins.hrstnSample := State.sampleSrstn_steady ha
  have hhr : s.sampleHrstn b = s.sampled s.pins.srstnSample b := State.sampleHrstn_steady hb
  match order with
  | 0 =>
    show ((s.sampleSrstn a).sampleHrstn b).bclkPeriod = _
    rw [hsr, State.sampleHrstn_steady (s := s.sampled a _) hb]
    exact State.bclkPeriod_sampled s a b
  | 1 =>
    show ((s.sampleHrstn b).sampleSrstn a).bclkPeriod = _
    rw [hhr, State.sampleSrstn_steady (s := s.sampled _ b) ha]
    exact State.bclkPeriod_sampled s a b
  | 2 =>
    show (s.sampleSrstn a).bclkPeriod.sampleHrstn b = _
    rw [hsr, State.bclkPeriod_sampled, State.sampleHrstn_steady (by rw [← h4]; exact hb')]
    rfl
  | 3 =>
    show (s.sampleHrstn b).bclkPeriod.sampleSrstn a = _
    rw [hhr, State.bclkPeriod_sampled, State.sampleSrstn_steady (by rw [← h2]; exact ha')]
    rfl
  | 4 =>
    show (s.bclkPeriod.sampleSrstn a).sampleHrstn b = _
    rw [State.sampleSrstn_steady ha', State.sampleHrstn_steady (s := s.bclkPeriod.sampled a _) hb']
    rfl
  | 5 =>
    show (s.bclkPeriod.sampleHrstn b).sampleSrstn a = _
    rw [State.sampleHrstn_steady hb', State.sampleSrstn_steady (s := s.bclkPeriod.sampled _ b) ha']
    rfl

end Steady

/-! ## The edge of BCLK of an idle step -/

/-- An edge of BCLK of a state without outputs, in the words of the claims. -/
theorem State.bclkEdge_eq {s : State} (hq : s.quiet = s) (hp : s.power ≠ .powerUpReset) (a b : Bool) (order : Fin 6) :
    s.bclkEdge a b order =
      (edgeOrder order).foldl (State.edgeWork a b)
        (if b = true ∧ s.pins.hrstnSample = true ∧ s.pins.hrstnLow = false then s else s.answered) := by
  have hgive : s.giveAnswer = s.answered := by rw [← State.atBclk_eq, State.atBclk, hq]
  rw [State.bclkEdge, if_neg hp, hgive]
  simp [State.takesHrstnFallAt, and_assoc]

theorem State.bclkEdge_steady {s : State} (hq : s.quiet = s) (hp : s.power ≠ .powerUpReset) {a b : Bool}
    (ha : s.pins.SrstnSteady a) (hb : s.pins.HrstnSteady b) (order : Fin 6) :
    s.bclkEdge a b order = s.answered.bclkPeriod.sampled a b := by
  have hno : ¬(b = true ∧ s.pins.hrstnSample = true ∧ s.pins.hrstnLow = false) := by
    rintro ⟨rfl, hsample, hlow⟩
    rcases hb with h | h
    · exact h hsample.symm
    · exact Bool.false_ne_true (hlow.symm.trans h.symm)
  rw [State.bclkEdge_eq hq hp, if_neg hno]
  exact State.edgeWorks_steady (by rwa [State.answered_pins]) (by rwa [State.answered_pins]) order

/-- Samples of the reset pins do not touch the answer that an edge gives. -/
theorem State.answered_sampled (s : State) (a b : Bool) : (s.sampled a b).answered = s.answered.sampled a b := by
  have ho : (s.sampled a b).hostPortOpen = s.hostPortOpen := rfl
  unfold State.answered
  rw [ho]
  split <;> rfl

theorem exec_responseLimit (s : State) : exec .responseLimit s = .next (s.answered.endAccess .responseLimit) := by
  simp only [exec, execResponseLimit, State.atBclk_eq]

theorem State.answered_of_closed {s : State} (h : s.hostPortOpen = false) : s.answered = s.quiet := by
  simp [State.answered, h, State.quiet]

theorem State.hostPortOpen_of_not_running {s : State} (h : s.power ≠ .running) : s.hostPortOpen = false := by
  simp [State.hostPortOpen, h]

@[simp] theorem State.answered_port (s : State) : s.answered.port = s.port := by rw [State.answered_frame]

/-- What an idle edge of BCLK comes to where it takes no reset pin, by the phase of the part. -/
structure State.SteadyEdge (s t : State) (a b : Bool) : Prop where
  counts (n : Nat) : s.power = .initialising n → n + 1 < 16 →
    t = State.sampled { s with power := .initialising (n + 1) } a b
  ends (n : Nat) : s.power = .initialising n → 16 ≤ n + 1 → t = s.endInitialisation.sampled a b
  free : s.power = .running → s.port.bus = none → t = s.answered.sampled a b
  goesOn (x : Access) : s.power = .running → s.port.bus = some x → x.period < 1024 →
    t = State.sampled { s.answered with port := { s.port with bus := some { x with period := x.period + 1 } } } a b
  limit (x : Access) : s.power = .running → s.port.bus = some x → 1024 ≤ x.period →
    exec .responseLimit (s.sampled a b) = .next t

theorem State.bclkEdge_steadyEdge {s : State} (hq : s.quiet = s) {a b : Bool} (ha : s.pins.SrstnSteady a)
    (hb : s.pins.HrstnSteady b) (order : Fin 6) : s.SteadyEdge (s.bclkEdge a b order) a b := by
  have hinit (n : Nat) (hp : s.power = .initialising n) : s.bclkEdge a b order = s.bclkPeriod.sampled a b := by
    rw [State.bclkEdge_steady hq (by simp [hp]) ha hb,
      State.answered_of_closed (State.hostPortOpen_of_not_running (by simp [hp])), hq]
  have hrun (hp : s.power = .running) : s.bclkEdge a b order = s.answered.bclkPeriod.sampled a b :=
    State.bclkEdge_steady hq (by simp [hp]) ha hb order
  have hpower (hp : s.power = .running) : s.answered.power = .running := by rw [State.answered_power, hp]
  constructor
  · intro n hp hn
    rw [hinit n hp]
    simp only [State.bclkPeriod, hp, if_pos hn]
  · intro n hp hn
    rw [hinit n hp]
    simp only [State.bclkPeriod, hp, if_neg (Nat.not_lt.mpr hn)]
  · intro hp hbus
    rw [hrun hp]
    rcases State.bclkPeriod_cases (hpower hp) with ⟨-, hs⟩ | ⟨x, hx, -⟩
    · rw [hs]
    · simp [hbus] at hx
  · intro x hp hbus hx
    rw [hrun hp]
    rcases State.bclkPeriod_cases (hpower hp) with ⟨hn, -⟩ | ⟨y, hy, ⟨-, hs⟩ | ⟨hlim, -⟩⟩
    · simp [hbus] at hn
    · rw [State.answered_port, hbus] at hy
      cases hy
      rw [hs, State.answered_port]
    · rw [State.answered_port, hbus] at hy
      cases hy
      omega
  · intro x hp hbus hx
    rw [hrun hp, exec_responseLimit, State.answered_sampled]
    rcases State.bclkPeriod_cases (hpower hp) with ⟨hn, -⟩ | ⟨y, hy, ⟨hlt, -⟩ | ⟨-, hs⟩⟩
    · simp [hbus] at hn
    · rw [State.answered_port, hbus] at hy
      cases hy
      omega
    · have hpins : (s.answered.endAccess .responseLimit).pins = s.answered.pins := by rw [State.endAccess_frame]
      rw [hs, State.sampled, State.sampled, State.endAccess_pins, hpins]

/-- Settles O2: the edge that passes by its clock; for an edge of BCLK that takes no reset pin, the phase of the part. -/
theorem idleStepPassesOneClockPeriod : Obligations.IdleStepPassesOneClockPeriod := by
  intro s hs s1
  have hstep : step s = s1.passEdge (idleEdge s.idles) := step_of_idle hs
  obtain ⟨t, ht, hpending, hidles⟩ := s1.passEdge_answers (idleEdge s.idles)
  refine ⟨t, hstep.trans ht, hpending.trans hs, hidles, ?_⟩
  cases he : idleEdge s.idles with
  | irc order =>
    rw [he] at ht
    cases ht
    by_cases hp : s.power = .powerUpReset <;> simp [State.clocked, s1, hp]
  | sck sdi =>
    rw [he] at ht
    simp only [State.passEdge, State.sckEdge] at ht
    refine ⟨fun hhigh => ?_, fun hlow => ?_⟩
    · rw [if_pos (show s1.pins.sckHigh = true from hhigh)] at ht
      cases ht
      rfl
    · rwa [if_neg (show ¬s1.pins.sckHigh = true by simp [s1, hlow])] at ht
  | bclk a b order =>
    rw [he] at ht
    cases ht
    refine ⟨fun hp => if_pos hp, fun hp => State.bclkEdge_eq (s := s1) rfl hp a b order, fun ha hb => ?_⟩
    have hsteady := State.bclkEdge_steadyEdge (s := s1) rfl ha hb order
    refine ⟨fun n hp hn => hsteady.counts n hp hn, fun n hp hn => ?_, fun hp => ⟨fun hbus => ?_, fun x hbus hx => ?_,
      fun x hbus hx => hsteady.limit x hp hbus hx⟩⟩
    · rw [hsteady.ends n hp hn]
      exact ⟨rfl, congrArg Link.phase s1.endInitialisation_link⟩
    · rw [hsteady.free hp hbus, State.sampled, State.answered_pins]
    · rw [hsteady.goesOn x hp hbus hx, State.sampled, State.answered_pins]

/-! ## What changes the mode and the tick counter -/

/-- The command is one of those that can change the part mode. -/
def MayChangeMode (c : Instr) : Prop :=
  (∃ p, c = .suspend p) ∨ (∃ p, c = .resume p) ∨ c = .powerUp ∨ c = .srstnFall ∨ c = .csnRise

theorem Performed.mode {s u : State} {c : Instr} {r : Reply} (h : Performed s c u r) :
    u.mode = s.mode ∨ (∃ p, c = .suspend p) ∨ ∃ p, c = .resume p := by
  cases h
  case armedFetching | resynced => left; rw [State.settle_mode, State.beginFetch_frame]
  case armed | armedPending | disarmed | clearedWatching => left; rw [State.settle_mode]; rfl
  case suspended p _ _ => exact .inr (.inl ⟨p, rfl⟩)
  case resumed p _ _ => exact .inr (.inr ⟨p, rfl⟩)
  all_goals exact .inl rfl

theorem Effect.mode {s t : State} {c : Instr} (h : Effect s c t) : t.mode = s.mode ∨ MayChangeMode c := by
  unfold MayChangeMode
  cases h
  case powerUp | srstnFall | csnRiseReset => right; simp
  case answered => left; rw [State.answered_frame]
  case srstnRise => left; rw [State.takeSrstnRise_mode, State.answered_frame]
  case hostReset => left; rw [State.takeHrstnFall_frame]; rfl
  case beatTaken => left; rw [State.takeBeat_frame, State.answered_frame]
  case accessEnded => left; rw [State.endAccess_frame, State.answered_frame]
  case ticked => left; rw [State.tickOnce_frame]; rfl
  case gapExpired => left; rw [State.gapExpires_frame]; rfl
  case refclkEdge => left; rw [State.refclkEdge_frame]; rfl
  case performed hu =>
    rw [State.respond_mode]
    rcases hu.mode with h | h | h
    · exact .inl h
    · exact .inr (.inl h)
    · exact .inr (.inr (.inl h))
  all_goals exact .inl rfl

/-- The tick counter grows by one at most. -/
theorem State.sourcePeriod_tickCounter (s : State) (order : TickOrder) :
    (s.sourcePeriod order).time.tickCounter = s.time.tickCounter ∨
      (s.sourcePeriod order).time.tickCounter = s.time.tickCounter + 1 ∧
        s.time.divisor.toNat ≤ s.time.dividerCount + 1 := by
  unfold State.sourcePeriod
  split
  · next h => exact .inr ⟨by rw [State.tickOnce_time], h⟩
  · exact .inl rfl

theorem State.gapExpires_tickCounter (s : State) : s.gapExpires.time.tickCounter = s.time.tickCounter := by
  unfold State.gapExpires
  split <;> simp [State.fallBack]

theorem State.countGap_tickCounter (s : State) : s.countGap.time.tickCounter = s.time.tickCounter := by
  unfold State.countGap
  split_ifs
  · rfl
  · exact s.gapExpires_tickCounter
  · rfl

theorem State.refclkEdge_tickCounter (s : State) (order : TickOrder) :
    (s.refclkEdge order).time.tickCounter = s.time.tickCounter ∨
      (s.refclkEdge order).time.tickCounter = s.time.tickCounter + 1 := by
  have hedge : s.time.edge.tickCounter = s.time.tickCounter := by rw [TimeBase.edge_frame]
  cases hs : s.time.source with
  | irc => rw [State.refclkEdge_of_irc hs]; exact .inl hedge
  | refclk =>
    rw [State.refclkEdge_of_refclk hs]
    rcases State.sourcePeriod_tickCounter { s with time := s.time.edge } order with h | ⟨h, -⟩
    · exact .inl (h.trans hedge)
    · exact .inr (h.trans (congrArg (· + 1) hedge))

/-- An IRC period that moves the tick counter is a source period that completes the divisor. -/
theorem State.ircPeriod_tickCounter {s : State} {order : TickOrder}
    (h : (s.ircPeriod order).time.tickCounter ≠ s.time.tickCounter) :
    (s.ircPeriod order).time.tickCounter = s.time.tickCounter + 1 ∧ s.time.source = .irc ∧
      s.time.divisor.toNat ≤ s.time.dividerCount + 1 := by
  cases hs : s.time.source with
  | refclk => rw [State.ircPeriod_of_refclk hs, State.countGap_tickCounter] at h; exact absurd rfl h
  | irc =>
    rw [State.ircPeriod_of_irc hs, State.countGap_tickCounter] at h ⊢
    rcases s.sourcePeriod_tickCounter order with hc | ⟨hc, hd⟩
    · exact absurd hc h
    · exact ⟨hc, rfl, hd⟩

/-- The command is one of those that can be a tick. -/
def MayTick (c : Instr) : Prop :=
  (∃ o, c = .tick o) ∨ (∃ i o, c = .deadlineLapse i o) ∨ (∃ i o, c = .rateWindowOpens i o) ∨
    (∃ k o, c = .strobePulseEnd k o) ∨ ∃ o, c = .refclkRisingEdge o

theorem mayTick_of_isTick {c : Instr} (h : isTick c = true) : MayTick c := by
  unfold MayTick
  cases c <;> simp [isTick] at h ⊢

theorem Effect.tickCounter {s t : State} {c : Instr} (h : Effect s c t) :
    t.time.tickCounter = s.time.tickCounter ∨ c = .powerUp ∨
      t.time.tickCounter = s.time.tickCounter + 1 ∧ MayTick c := by
  cases h
  case powerUp => exact .inr (.inl rfl)
  case answered => left; rw [State.answered_frame]
  case srstnFall => left; rw [State.takeSrstnFall_frame, State.answered_frame]
  case srstnRise => left; rw [State.takeSrstnRise_time, State.answered_frame]
  case hostReset => left; rw [State.takeHrstnFall_frame]; rfl
  case beatTaken => left; rw [State.takeBeat_frame, State.answered_frame]
  case accessEnded => left; rw [State.endAccess_frame, State.answered_frame]
  case ticked order _ hc => exact .inr (.inr ⟨by rw [State.tickOnce_time]; rfl, mayTick_of_isTick hc⟩)
  case gapExpired => exact .inl s.quiet.gapExpires_tickCounter
  case refclkEdge order _ =>
    rcases s.quiet.refclkEdge_tickCounter order with ht | ht
    · exact .inl ht
    · exact .inr (.inr ⟨ht, by simp [MayTick]⟩)
  case csnRiseReset => left; rw [State.supervisorReset_frame]; rfl
  case performed hu =>
    rw [State.respond_time]
    rcases hu.time with ht | ⟨source, divisor, -, -, ht⟩ <;> rw [ht] <;> exact .inl rfl
  all_goals exact .inl rfl

/-! ## Which edge of a clock does -/

/-- The request that a code names spells that code and the payload; a code that names none is a BAD_COMMAND. -/
theorem requestNamed_spec (code : Byte) (p : List Byte) :
    (code ∉ requestCodes ∧ requestNamed code p = .badCommand code p) ∨
      (code ∈ requestCodes ∧ ∃ n, requestParts (requestNamed code p) = some (code, n, p)) := by
  by_cases h : code ∈ requestCodes
  · refine .inr ⟨h, ?_⟩
    simp only [requestCodes, List.mem_cons, List.not_mem_nil, or_false] at h
    rcases h with rfl | rfl | rfl | rfl | rfl | rfl | rfl | rfl | rfl | rfl | rfl | rfl | rfl | rfl | rfl | rfl | rfl <;>
      exact ⟨_, rfl⟩
  · refine .inl ⟨h, ?_⟩
    simp only [requestCodes, List.mem_cons, List.not_mem_nil, or_false, not_or] at h
    unfold requestNamed
    split
    case h_18 => rfl
    all_goals bv_omega

/-- A whole byte is a byte of the link or a request: of the commands that are neither it is none. -/
theorem Link.byteCommand_cases (l : Link) (b : Byte) :
    l.byteCommand b = .requestByteReceived b ∨ l.byteCommand b = .badFrame b ∨ l.byteCommand b = .responseByteSent ∨
      l.byteCommand b = requestNamed l.code l.payload := by
  unfold Link.byteCommand
  split
  · split
    · exact .inl rfl
    · split
      · exact .inr (.inl rfl)
      · exact .inr (.inr (.inr rfl))
  all_goals exact .inr (.inr (.inl rfl))

/-- The commands that a byte of the link can be: those of a byte, and those that end a frame. -/
def isOfLink (c : Instr) : Prop :=
  (∃ b, c = .requestByteReceived b) ∨ (∃ b, c = .badFrame b) ∨ c = .responseByteSent ∨ (∃ code p, c = .badCommand code p) ∨
    ∃ x, requestParts c = some x

theorem Link.byteCommand_isOfLink (l : Link) (b : Byte) : isOfLink (l.byteCommand b) := by
  unfold isOfLink
  rcases l.byteCommand_cases b with h | h | h | h
  · exact .inl ⟨b, h⟩
  · exact .inr (.inl ⟨b, h⟩)
  · exact .inr (.inr (.inl h))
  · rcases requestNamed_spec l.code l.payload with ⟨-, hn⟩ | ⟨-, n, hn⟩
    · exact .inr (.inr (.inr (.inl ⟨_, _, h.trans hn⟩)))
    · exact .inr (.inr (.inr (.inr ⟨_, by rw [h]; exact hn⟩)))

/-- Of the commands of the link SUSPEND and RESUME alone can change the mode. -/
theorem isOfLink.mode {c : Instr} (h : isOfLink c) (hm : MayChangeMode c) :
    ∃ p, c = .suspend p ∨ c = .resume p := by
  rcases hm with ⟨p, hp⟩ | ⟨p, hp⟩ | rfl | rfl | rfl
  · exact ⟨p, .inl hp⟩
  · exact ⟨p, .inr hp⟩
  all_goals simp [isOfLink, requestParts] at h

/-- None of the commands of the link moves the tick counter. -/
theorem isOfLink.tickCounter {s t : State} {c : Instr} (h : isOfLink c) (ht : Effect s c t) :
    t.time.tickCounter = s.time.tickCounter := by
  rcases ht.tickCounter with ht | rfl | ⟨-, ⟨o, rfl⟩ | ⟨i, o, rfl⟩ | ⟨i, o, rfl⟩ | ⟨k, o, rfl⟩ | ⟨o, rfl⟩⟩
  · exact ht
  all_goals simp [isOfLink, requestParts] at h

/-! ## The mode at an edge of BCLK -/

/-- Mode and SRSTN stand as they did. -/
structure State.SrstnKept (s u : State) : Prop where
  mode : u.mode = s.mode
  low : u.pins.srstnLow = s.pins.srstnLow
  sample : u.pins.srstnSample = s.pins.srstnSample

/-- The edge of BCLK takes a fall of SRSTN that it finds at this level (R190). -/
def Pins.takesSrstnFall (p : Pins) (low : Bool) : Prop := low = true ∧ p.srstnSample = true ∧ p.srstnLow = false

theorem State.sampleSrstn_mode {s : State} {low : Bool} (h : ¬s.pins.takesSrstnFall low) :
    (s.sampleSrstn low).mode = s.mode := by
  unfold State.sampleSrstn
  split
  · next hnew =>
    cases low with
    | true => exact absurd ⟨rfl, hnew.1.symm, by simpa using hnew.2.symm⟩ h
    | false => rfl
  · rfl

theorem State.sampleHrstn_srstnKept (s : State) (low : Bool) : s.SrstnKept (s.sampleHrstn low) := by
  rcases s.sampleHrstn_cases low with h | ⟨-, -, h⟩ | ⟨-, -, h⟩ <;> rw [h]
  · exact ⟨rfl, rfl, rfl⟩
  · refine ⟨by rw [State.takeHrstnFall_frame], ?_, ?_⟩ <;> unfold State.takeHrstnFall <;> split <;> rfl
  · exact ⟨rfl, rfl, rfl⟩

theorem State.bclkPeriod_srstnKept (s : State) : s.SrstnKept s.bclkPeriod := by
  obtain ⟨hlow, hsample, -, -⟩ := s.bclkPeriod_resetPins
  exact ⟨by rw [State.bclkPeriod_frame], hlow, hsample⟩

theorem State.giveAnswer_srstnKept (s : State) : s.SrstnKept s.giveAnswer := by
  constructor <;> rw [State.giveAnswer_frame]

/-- The works of an edge of BCLK that takes no fall of SRSTN leave the mode, in whichever order. -/
theorem State.edgeWorks_mode {s : State} {a : Bool} (h : ¬s.pins.takesSrstnFall a) (b : Bool) (order : Fin 6) :
    ((edgeOrder order).foldl (State.edgeWork a b) s).mode = s.mode := by
  have hsample {u : State} (hu : s.SrstnKept u) : (u.sampleSrstn a).mode = s.mode := by
    rw [State.sampleSrstn_mode, hu.mode]
    rwa [Pins.takesSrstnFall, hu.low, hu.sample]
  have htrans {u v : State} (hu : s.SrstnKept u) (hv : u.SrstnKept v) : s.SrstnKept v :=
    ⟨hv.mode.trans hu.mode, hv.low.trans hu.low, hv.sample.trans hu.sample⟩
  have hs : s.SrstnKept s := ⟨rfl, rfl, rfl⟩
  match order with
  | 0 => exact (State.bclkPeriod_srstnKept _).mode.trans ((State.sampleHrstn_srstnKept _ b).mode.trans (hsample hs))
  | 1 => exact (State.bclkPeriod_srstnKept _).mode.trans (hsample (State.sampleHrstn_srstnKept s b))
  | 2 => exact (State.sampleHrstn_srstnKept _ b).mode.trans ((State.bclkPeriod_srstnKept _).mode.trans (hsample hs))
  | 3 => exact hsample (htrans (State.sampleHrstn_srstnKept s b) (State.bclkPeriod_srstnKept _))
  | 4 => exact (State.sampleHrstn_srstnKept _ b).mode.trans (hsample (State.bclkPeriod_srstnKept s))
  | 5 => exact hsample (htrans (State.bclkPeriod_srstnKept s) (State.sampleHrstn_srstnKept _ b))

theorem State.bclkEdge_mode {s : State} {a : Bool} (h : ¬s.pins.takesSrstnFall a) (b : Bool) (order : Fin 6) :
    (s.bclkEdge a b order).mode = s.mode := by
  unfold State.bclkEdge
  split
  · rfl
  · split
    · exact State.edgeWorks_mode h b order
    · have hg := s.giveAnswer_srstnKept
      rw [State.edgeWorks_mode (by rwa [Pins.takesSrstnFall, hg.low, hg.sample]), hg.mode]

theorem State.bclkEdge_time (s : State) (a b : Bool) (order : Fin 6) : (s.bclkEdge a b order).time = s.time :=
  State.bclkEdge_keeps (P := fun u => u.time = s.time) (fun u low hu => by rw [State.sampleSrstn_frame]; exact hu)
    (fun u low hu => by rw [State.sampleHrstn_frame]; exact hu) (fun u hu => by rw [State.bclkPeriod_frame]; exact hu)
    (fun u hu => by rw [State.giveAnswer_frame]; exact hu) rfl a b order

/-- A rising edge of SCK changes the mode only as it ends the byte that makes a SUSPEND or a RESUME, and never moves the tick
counter. -/
theorem State.sckRises_mode {s t : State} {sdi : Bool} (ht : s.sckRises sdi = .next t) :
    (t.mode = s.mode ∨ 7 ≤ s.link.bits.length ∧
        ∃ p, s.link.byteCommand (byteOfBits (s.link.bits ++ [sdi])) = .suspend p ∨
          s.link.byteCommand (byteOfBits (s.link.bits ++ [sdi])) = .resume p) ∧
      t.time.tickCounter = s.time.tickCounter := by
  unfold State.sckRises at ht
  dsimp only at ht
  split at ht
  · cases ht
    exact ⟨.inl rfl, rfl⟩
  · split at ht
    · cases ht
      exact ⟨.inl rfl, rfl⟩
    · next hbits =>
      have heffect := effect_of_exec ht
      have hlink := s.link.byteCommand_isOfLink (byteOfBits (s.link.bits ++ [sdi]))
      exact ⟨heffect.mode.imp_right fun hm => ⟨Nat.le_of_not_lt hbits, hlink.mode hm⟩, hlink.tickCounter heffect⟩

/-- Settles O37: of a command by its effects, of an idle step by the edge that passes. -/
theorem modeAndTickCounterChangeOnlySo : Obligations.ModeAndTickCounterChangeOnlySo := by
  refine ⟨fun s t hs ht => ?_, fun c s t ht => ⟨fun hm => ?_, fun hc => ?_⟩⟩
  · rw [step_of_idle hs] at ht
    set s1 : State := { s.quiet with idles := s.idles + 1 }
    cases he : idleEdge s.idles with
    | bclk a b order =>
      rw [he] at ht
      cases ht
      refine ⟨fun hm => ?_, fun hc => absurd (congrArg TimeBase.tickCounter (State.bclkEdge_time _ a b order)) hc⟩
      by_contra hno
      by_cases hp : s.power = .powerUpReset
      · have hstill : s1.bclkEdge a b order = s1 := if_pos hp
        exact hm (congrArg State.mode hstill : _ = s1.mode)
      · exact hm (State.bclkEdge_mode (s := s1) (fun h => hno ⟨hp, h⟩) b order)
    | sck sdi =>
      rw [he] at ht
      simp only [State.passEdge, State.sckEdge] at ht
      split at ht
      · cases ht
        exact ⟨fun hm => absurd rfl hm, fun hc => absurd rfl hc⟩
      · next hhigh =>
        obtain ⟨hmode, hcount⟩ := State.sckRises_mode ht
        exact ⟨fun hm => ⟨Bool.eq_false_of_not_eq_true hhigh, hmode.resolve_left hm⟩, fun hc => absurd hcount hc⟩
    | irc order =>
      rw [he] at ht
      cases ht
      split
      · next hp =>
        refine ⟨fun hm => hm (by rw [State.ircPeriod_frame]; rfl), fun hc => ?_⟩
        obtain ⟨hc', hsource, hdivisor⟩ := State.ircPeriod_tickCounter hc
        exact ⟨hc', of_decide_eq_true hp, hsource, hdivisor, order, rfl⟩
      · exact ⟨fun hm => hm rfl, fun hc => absurd rfl hc⟩
  · exact (effect_of_exec ht).mode.resolve_left hm
  · exact (effect_of_exec ht).tickCounter.resolve_left hc

end Sys2Proof.Machine
end

section
/-! Queue and alert unit event by event (R118 to R136, R141 to R151): what an append, an eviction, a discard and an
acknowledgement leave of each class, and what every step keeps of both. -/

namespace Sys2Proof.Machine

/-! ## One class under the changes of one outcome (R142, R144, R147) -/

/-- A start of a pulse, field by field. -/
theorem ClassState.startPulse_eq (k : ClassState) :
    k.startPulse =
      { k with pulse := if k.mode = .strobe ∧ k.maskOpen = true then k.strobeLength + 1 else k.pulse } := by
  obtain ⟨maskOpen, mode⟩ := k
  cases maskOpen <;> cases mode <;> rfl

theorem AlertUnit.take_get (a : AlertUnit) (chs : List AlertChange) (c : ClassNo) :
    (a.take chs).get c = ((chs.foldl AlertUnit.change a).get c).drive := by
  simp [AlertUnit.take]

/-- A change leaves the classes that it does not name. -/
theorem AlertUnit.change_get_of_ne (a : AlertUnit) {ch : AlertChange} {c : ClassNo} (h : ch.cls ≠ c) :
    (a.change ch).get c = a.get c := by
  cases ch <;> simp only [AlertUnit.change, AlertUnit.get_set, AlertChange.cls] at h ⊢ <;> rw [if_neg h]

theorem AlertUnit.change_appended (a : AlertUnit) (c : ClassNo) :
    (a.change (.appended c)).get c = { (a.get c) with count := (a.get c).count + 1 }.startPulse := by
  simp [AlertUnit.change]

theorem AlertUnit.change_removed (a : AlertUnit) (c : ClassNo) :
    (a.change (.removed c)).get c = { (a.get c) with count := (a.get c).count - 1 } := by
  simp [AlertUnit.change]

theorem AlertUnit.change_marked (a : AlertUnit) (c : ClassNo) :
    (a.change (.marked c)).get c = { (a.get c) with missed := true }.startPulse := by
  simp [AlertUnit.change]

/-! ## The alert unit at each of the three outcomes of an event -/

section Outcomes
variable {s : State} {ev : Event} {c : ClassNo}

/-- R125: an append reaches the class of its event. -/
theorem State.raiseOne_alerts_appended (h : s.queue.records.length < queueCapacity) :
    (s.raiseOne ev).alerts.get ev.cls =
      { s.alerts.get ev.cls with count := (s.alerts.get ev.cls).count + 1 }.startPulse.drive := by
  rw [State.raiseOne_alerts, EventQueue.takeEvent_append ev h, AlertUnit.take_get]
  exact congrArg ClassState.drive (AlertUnit.change_appended _ _)

theorem State.raiseOne_alerts_other (h : s.queue.records.length < queueCapacity) (hc : c ≠ ev.cls) :
    (s.raiseOne ev).alerts.get c = (s.alerts.get c).drive := by
  rw [State.raiseOne_alerts, EventQueue.takeEvent_append ev h, AlertUnit.take_get]
  exact congrArg ClassState.drive (AlertUnit.change_get_of_ne _ (ch := .appended ev.cls) (Ne.symm hc))

/-- R127: a discard reaches the class of its event. -/
theorem State.raiseOne_discard (h : queueCapacity ≤ s.queue.records.length) (hg : ¬ev.cls < greatestClass s.queue.records) :
    (s.raiseOne ev).queue.records = s.queue.records ∧
      (s.raiseOne ev).alerts.get ev.cls = { s.alerts.get ev.cls with missed := true }.startPulse.drive ∧
      ∀ c, c ≠ ev.cls → (s.raiseOne ev).alerts.get c = (s.alerts.get c).drive := by
  rw [State.raiseOne_alerts, State.raiseOne_queue, EventQueue.takeEvent_discard h hg]
  refine ⟨rfl, ?_, fun c hc => ?_⟩ <;> rw [AlertUnit.take_get]
  · exact congrArg ClassState.drive (AlertUnit.change_marked _ _)
  · exact congrArg ClassState.drive (AlertUnit.change_get_of_ne _ (ch := .marked ev.cls) (Ne.symm hc))

/-- R126: an eviction reaches the class of the record evicted and the class of its event. -/
theorem State.raiseOne_evict (h : queueCapacity ≤ s.queue.records.length) (hg : ev.cls < greatestClass s.queue.records) :
    let g := greatestClass s.queue.records
    (s.raiseOne ev).queue.records = removeLastOf g s.queue.records ++ [⟨s.queue.next, ev⟩] ∧
      (s.raiseOne ev).alerts.get g =
        { s.alerts.get g with count := (s.alerts.get g).count - 1, missed := true }.startPulse.drive ∧
      (s.raiseOne ev).alerts.get ev.cls =
        { s.alerts.get ev.cls with count := (s.alerts.get ev.cls).count + 1 }.startPulse.drive ∧
      ∀ c, c ≠ g → c ≠ ev.cls → (s.raiseOne ev).alerts.get c = (s.alerts.get c).drive := by
  intro g
  have hne : ev.cls ≠ g := ne_of_lt hg
  rw [State.raiseOne_alerts, State.raiseOne_queue, EventQueue.takeEvent_evict h hg]
  refine ⟨rfl, ?_, ?_, fun c hcg hce => ?_⟩ <;> rw [AlertUnit.take_get] <;> refine congrArg ClassState.drive ?_ <;>
    simp only [List.foldl_cons, List.foldl_nil]
  · rw [AlertUnit.change_get_of_ne _ (show (AlertChange.appended ev.cls).cls ≠ g from hne), AlertUnit.change_marked,
      AlertUnit.change_removed]
  · rw [AlertUnit.change_appended, AlertUnit.change_get_of_ne _ (show (AlertChange.marked g).cls ≠ _ from hne.symm),
      AlertUnit.change_get_of_ne _ (show (AlertChange.removed g).cls ≠ _ from hne.symm)]
  · rw [AlertUnit.change_get_of_ne _ (show (AlertChange.appended ev.cls).cls ≠ c from hce.symm),
      AlertUnit.change_get_of_ne _ (show (AlertChange.marked g).cls ≠ c from hcg.symm),
      AlertUnit.change_get_of_ne _ (show (AlertChange.removed g).cls ≠ c from hcg.symm)]

end Outcomes

/-- R126: the record of a class appended last, and what stands before and behind it. -/
theorem exists_last_of_class {rs : List Record} {c : ClassNo} (h : ∃ r ∈ rs, r.cls = c) :
    ∃ before x behind, rs = before ++ x :: behind ∧ x.cls = c ∧ (∀ r ∈ behind, r.cls ≠ c) ∧
      removeLastOf c rs = before ++ behind := by
  obtain ⟨r, hr, hc⟩ := h
  obtain ⟨x, l₁, l₂, hl₁, hx, hl, he⟩ := List.exists_of_eraseP (p := fun r : Record => decide (r.cls = c))
    (List.mem_reverse.mpr hr) (decide_eq_true hc)
  refine ⟨l₂.reverse, x, l₁.reverse, ?_, of_decide_eq_true hx, fun r hr => ?_, by simp [removeLastOf, he]⟩
  · simpa using congrArg List.reverse hl
  · simpa using hl₁ r (List.mem_reverse.mp hr)

theorem le_greatestClass {rs : List Record} {r : Record} (h : r ∈ rs) : r.cls ≤ greatestClass rs :=
  (greatestClass_spec rs 0).1 r h

/-- Settles O54: the record removed by the greatest class, the alert unit by the eviction's three changes. -/
theorem urgentEventEvictsTheLeastUrgent : Obligations.UrgentEventEvictsTheLeastUrgent := by
  intro s ev hfull hurgent strobed
  obtain ⟨r, hr, hlt⟩ := hurgent
  have hg : ev.cls < greatestClass s.queue.records := lt_of_lt_of_le hlt (le_greatestClass hr)
  obtain ⟨before, x, behind, hrs, hx, hbehind, hrem⟩ := exists_last_of_class (exists_of_lt_greatestClass hg)
  obtain ⟨hrecords, hevicted, hraised, hother⟩ := State.raiseOne_evict (s := s) hfull.ge hg
  refine ⟨before, x, behind, hrs, fun r hr => hx ▸ le_greatestClass hr, fun r hr => hx ▸ hbehind r hr, hx ▸ hg, ?_, ?_, ?_,
    ?_, ?_, fun c hcx hce => hother c (hx ▸ hcx) hce⟩
  · rw [hrecords, hrem]
  · rw [State.raiseOne_queue, EventQueue.takeEvent_length_of_full ev hfull.ge, hfull]
  · rw [hx, hevicted, ClassState.drive_missed, (ClassState.startPulse_settings _).2.2.2]
  · rw [hx, hevicted, ClassState.startPulse_eq]
  · rw [hraised, ClassState.startPulse_eq]

/-- Settles O55: the discard by its one change; every event by the number it uses and the frame of raising it. -/
theorem otherEventIsDiscarded : Obligations.OtherEventIsDiscarded := by
  intro s ev
  refine ⟨fun hfull hle => ?_, by simp, by simp, s.raise_frame [ev]⟩
  have hg : ¬ev.cls < greatestClass s.queue.records := fun hlt => by
    obtain ⟨r, hr, hrc⟩ := exists_of_lt_greatestClass hlt
    exact absurd (hle r hr) (not_le.mpr (hrc ▸ hlt))
  obtain ⟨hrecords, hmarked, hother⟩ := State.raiseOne_discard (s := s) hfull.ge hg
  refine ⟨hrecords, ?_, ?_, hother⟩
  · rw [hmarked, ClassState.drive_missed, (ClassState.startPulse_settings _).2.2.2]
  · rw [hmarked, ClassState.startPulse_eq]

/-! ## Acknowledgement (R133 to R135) -/

/-- The removals of a run of records take away, of each class, the records that it has among them. -/
theorem AlertUnit.removals_get (rs : List Record) (a : AlertUnit) (c : ClassNo) :
    ((rs.map fun r => AlertChange.removed r.cls).foldl AlertUnit.change a).get c =
      { a.get c with count := (a.get c).count - rs.countP fun r => decide (r.cls = c) } := by
  induction rs generalizing a with
  | nil => rfl
  | cons r rs ih =>
    rw [List.map_cons, List.foldl_cons, ih]
    by_cases hc : r.cls = c
    · subst hc
      rw [AlertUnit.change_removed]
      simp [Nat.sub_sub, Nat.add_comm]
    · rw [AlertUnit.change_get_of_ne _ (show (AlertChange.removed r.cls).cls ≠ c from hc)]
      simp [hc]

theorem State.ack_of_ahead {s : State} {n : Seq} (h : s.queue.ahead n = true) :
    s.ack n = (s, .badSeq s.queue.lastAssigned) := by
  simp [State.ack, h]

theorem State.ack_of_not_ahead {s : State} {n : Seq} (h : s.queue.ahead n = false) :
    s.ack n = (s.acknowledge n,
      .ok [byteOf (s.queue.acknowledged n).length, byteOf (s.acknowledge n).queue.records.length]) := by
  simp [State.ack, h]

/-- An ACK EVENTS frame is answered with what its check and its performance give. -/
theorem exec_ackEvents {s u : State} {hi lo : Byte} {r : Reply} (h : s.link.awaits 0x31 [hi, lo] = true)
    (hr : s.quiet.ack (hi ++ lo) = (u, r)) : exec (.ackEvents [hi, lo]) s = .next (u.respond 0x31 [hi, lo] r) :=
  exec_request_eq rfl h rfl hr

/-- Settles O56: the refusal by the window of the number, the run of records by the split of the queue at the first that
stays. -/
theorem ackEventsRemovesARunFromTheHead : Obligations.AckEventsRemovesARunFromTheHead := by
  intro s hi lo h n last c
  have hahead : s.queue.ahead n = (decide (1 ≤ (n - last).toNat) && decide ((n - last).toNat ≤ 32767)) := rfl
  refine ⟨fun h1 h2 => ?_, fun hn => ?_⟩
  · have ha : s.queue.ahead n = true := by
      rw [hahead, Bool.and_eq_true, decide_eq_true_eq, decide_eq_true_eq]
      exact ⟨h1, h2⟩
    exact exec_ackEvents h (State.ack_of_ahead (s := s.quiet) ha)
  · have ha : s.queue.ahead n = false := by
      rw [hahead, ← Bool.decide_and, decide_eq_false_iff_not]
      omega
    refine ⟨_, s.queue.acknowledged n, s.queue.records.dropWhile fun r => r.atOrBefore n,
      exec_ackEvents h (State.ack_of_not_ahead (s := s.quiet) ha), List.takeWhile_append_dropWhile.symm,
      fun r hr => ?_, fun r hr => ?_, rfl, fun k => ?_⟩
    · exact of_decide_eq_true (List.mem_takeWhile_imp (p := fun r : Record => r.atOrBefore n) hr)
    · have hfirst := List.head?_dropWhile_not (fun r : Record => r.atOrBefore n) s.queue.records
      rw [Option.mem_def] at hr
      rw [hr] at hfirst
      simpa [Record.atOrBefore] using hfirst
    · rw [State.respond_alerts]
      exact (AlertUnit.take_get _ _ k).trans (congrArg ClassState.drive (AlertUnit.removals_get _ _ k))

/-! ## The lines (R141, R143) -/

/-- A class whose line shows its state is driven to itself. -/
theorem ClassState.drive_of_line {k : ClassState} (h : k.line = k.lineValue) : k.drive = k := by
  unfold ClassState.drive
  rw [← h]

theorem exists_of_count {rs : List Record} {c : ClassNo} :
    0 < rs.countP (fun r => decide (r.cls = c)) ↔ ∃ r ∈ rs, r.cls = c := by
  simp [List.countP_pos_iff]

/-- Settles O57: the LEVEL line by its class's state, the appended record by the one class that it reaches. -/
theorem linesFollowTheQueue : Obligations.LinesFollowTheQueue := by
  refine ⟨fun _ _ => Iff.rfl, fun s ⟨_, hcount⟩ halerts => ⟨fun c hmode => ?_, fun ev hroom => ?_⟩⟩
  · rw [(halerts c).1]
    simp only [ClassState.lineValue, hmode, ClassState.pending, hcount c, Bool.and_eq_true, Bool.or_eq_true,
      decide_eq_true_eq, exists_of_count]
  · intro k k1
    have hk1 : k1 = { k with count := k.count + 1 }.startPulse.drive := State.raiseOne_alerts_appended hroom
    have hpulse : k.maskOpen = true ∧ k.mode = .strobe ∨ k.pulse = 0 := (halerts ev.cls).2.1
    refine ⟨?_, ?_, ?_, ?_, ?_, fun hm => ?_, fun hm ho => ?_, fun hm ho => ?_, fun c hc => ?_⟩
    · rw [hk1, ClassState.drive_count, ClassState.startPulse_count]
    · rw [hk1, ClassState.drive_missed, (ClassState.startPulse_settings _).2.2.2]
    · rw [hk1, ClassState.drive_maskOpen, (ClassState.startPulse_settings _).1]
    · rw [hk1, ClassState.drive_mode, (ClassState.startPulse_settings _).2.1]
    · rw [hk1, ClassState.drive_strobeLength, (ClassState.startPulse_settings _).2.2.1]
    · rw [hk1, ClassState.startPulse_eq]
      have hnone : k.pulse = 0 := hpulse.resolve_left fun h => by simp [hm] at h
      simp [ClassState.drive, ClassState.lineValue, ClassState.pending, hm, hnone]
    · rw [hk1, ClassState.startPulse_eq]
      simp [ClassState.drive, ClassState.lineValue, hm, ho]
    · rw [hk1, ClassState.startPulse_eq]
      have hnone : k.pulse = 0 := hpulse.resolve_left fun h => by simp [ho] at h
      simp [ClassState.drive, ClassState.lineValue, hm, ho, hnone]
    · rw [State.raiseOne_alerts_other hroom hc, ClassState.drive_of_line (halerts c).1]

/-! ## What one event keeps -/

/-- A class that is sound but for its line. -/
structure ClassState.SoundUndriven (k : ClassState) : Prop where
  pulsing : k.maskOpen = true ∧ k.mode = .strobe ∨ k.pulse = 0
  shortest : 1 ≤ k.strobeLength
  longest : k.strobeLength ≤ 15
  pulse : k.pulse ≤ 16

theorem ClassState.sound.undriven {k : ClassState} (h : k.sound) : k.SoundUndriven := by
  obtain ⟨-, hpulsing, hshortest, hlongest, hpulse⟩ := h
  exact ⟨hpulsing, hshortest, hlongest, hpulse⟩

/-- Driving the line makes it sound. -/
theorem ClassState.SoundUndriven.drive {k : ClassState} (h : k.SoundUndriven) : k.drive.sound :=
  ⟨rfl, h.pulsing, h.shortest, h.longest, h.pulse⟩

theorem ClassState.SoundUndriven.startPulse {k : ClassState} (h : k.SoundUndriven) : k.startPulse.SoundUndriven := by
  unfold ClassState.startPulse
  split
  · next hb =>
    have hlongest := h.longest
    exact { h with pulsing := .inl (by simpa using hb), pulse := by show k.strobeLength + 1 ≤ 16; omega }
  · exact h

theorem AlertUnit.change_soundUndriven {a : AlertUnit} (ch : AlertChange) {c : ClassNo} (h : (a.get c).SoundUndriven) :
    ((a.change ch).get c).SoundUndriven := by
  by_cases hc : ch.cls = c
  · subst hc
    cases ch with
    | appended c =>
      rw [show (AlertChange.appended c).cls = c from rfl, AlertUnit.change_appended]
      exact ClassState.SoundUndriven.startPulse (k := { a.get c with count := _ }) ⟨h.1, h.2, h.3, h.4⟩
    | removed c =>
      rw [show (AlertChange.removed c).cls = c from rfl, AlertUnit.change_removed]
      exact ⟨h.1, h.2, h.3, h.4⟩
    | marked c =>
      rw [show (AlertChange.marked c).cls = c from rfl, AlertUnit.change_marked]
      exact ClassState.SoundUndriven.startPulse (k := { a.get c with missed := _ }) ⟨h.1, h.2, h.3, h.4⟩
  · rwa [AlertUnit.change_get_of_ne _ hc]

/-- The changes of an outcome keep a class sound. -/
theorem AlertUnit.take_sound {a : AlertUnit} {c : ClassNo} (h : (a.get c).sound) (chs : List AlertChange) :
    ((a.take chs).get c).sound := by
  rw [AlertUnit.take_get]
  refine ClassState.SoundUndriven.drive ?_
  have hundriven := h.undriven
  clear h
  induction chs generalizing a with
  | nil => exact hundriven
  | cons ch chs ih => exact ih (AlertUnit.change_soundUndriven ch hundriven)

/-- Queue and alert unit are sound together. -/
structure EventsSound (q : EventQueue) (a : AlertUnit) : Prop where
  length : q.records.length ≤ queueCapacity
  count (c : ClassNo) : (a.get c).count = q.records.countP fun r => decide (r.cls = c)
  sound (c : ClassNo) : (a.get c).sound

theorem State.eventsSound_iff (s : State) : EventsSound s.queue s.alerts ↔ s.queueSound ∧ s.alertSound :=
  ⟨fun ⟨h1, h2, h3⟩ => ⟨⟨h1, h2⟩, h3⟩, fun ⟨⟨h1, h2⟩, h3⟩ => ⟨h1, h2, h3⟩⟩

theorem EventsSound.reset : EventsSound .reset .reset := by
  refine ⟨Nat.zero_le _, fun c => ?_, fun c => ?_⟩ <;> match c with
    | 0 | 1 | 2 | 3 => first | rfl | exact ⟨rfl, .inr rfl, by decide, by decide, by decide⟩

/-- A new record counts for the class of its event. -/
theorem countP_new (n : Seq) (ev : Event) (c : ClassNo) :
    [(⟨n, ev⟩ : Record)].countP (fun r => decide (r.cls = c)) = if ev.cls = c then 1 else 0 := by
  rw [List.countP_singleton]
  exact if_congr decide_eq_true_iff rfl rfl

/-- R125 to R127: taking an event moves the counts as the records. -/
theorem EventsSound.takeEvent_count {q : EventQueue} {a : AlertUnit} (h : EventsSound q a) (ev : Event) (c : ClassNo) :
    ((a.take (q.takeEvent ev).2).get c).count = (q.takeEvent ev).1.records.countP fun r => decide (r.cls = c) := by
  rw [AlertUnit.take_count]
  have hcount := h.count c
  rcases Nat.lt_or_ge q.records.length queueCapacity with hroom | hfull
  · rw [EventQueue.takeEvent_append ev hroom]
    simp only [List.foldl_cons, List.foldl_nil, AlertUnit.change_count, AlertChange.cls, AlertChange.count, List.countP_append,
      countP_new, hcount]
    split <;> rfl
  · by_cases hg : ev.cls < greatestClass q.records
    · rw [EventQueue.takeEvent_evict hfull hg]
      have hrem := (removeLastOf_spec (exists_of_lt_greatestClass hg)).2 c
      have hne : ev.cls ≠ greatestClass q.records := ne_of_lt hg
      simp only [List.foldl_cons, List.foldl_nil, AlertUnit.change_count, AlertChange.cls, AlertChange.count,
        List.countP_append, countP_new, hcount, ← hrem]
      by_cases hc : greatestClass q.records = c
      · rw [if_pos hc, if_pos hc, if_neg (hc ▸ hne)]
        have hce : ev.cls ≠ c := hc ▸ hne
        simp [hc, hce]
      · simp only [if_neg hc]
        split <;> rfl
    · rw [EventQueue.takeEvent_discard hfull hg]
      simp only [List.foldl_cons, List.foldl_nil, AlertUnit.change_count, AlertChange.cls, AlertChange.count, hcount, ite_self]

theorem State.raiseOne_eventsSound {s : State} (h : EventsSound s.queue s.alerts) (ev : Event) :
    EventsSound (s.raiseOne ev).queue (s.raiseOne ev).alerts :=
  ⟨State.raiseOne_length_le ev h.length, h.takeEvent_count ev, fun c => AlertUnit.take_sound (h.sound c) _⟩

theorem State.raise_eventsSound {s : State} (h : EventsSound s.queue s.alerts) (evs : List Event) :
    EventsSound (s.raise evs).queue (s.raise evs).alerts := by
  induction evs generalizing s with
  | nil => exact h
  | cons ev evs ih => exact ih (State.raiseOne_eventsSound h ev)

/-! ## States that differ by events raised -/

/-- Queue and alert unit of t are those of s after a group of events. -/
def State.Raised (s t : State) : Prop :=
  ∃ evs, t.queue = (s.raise evs).queue ∧ t.alerts = (s.raise evs).alerts

theorem State.raise_append (s : State) (evs more : List Event) : s.raise (evs ++ more) = (s.raise evs).raise more := by
  simp [State.raise]

theorem State.Raised.of_eq {s t : State} (hq : t.queue = s.queue) (ha : t.alerts = s.alerts) : s.Raised t :=
  ⟨[], hq, ha⟩

theorem State.raised_raise (s : State) (evs : List Event) : s.Raised (s.raise evs) := ⟨evs, rfl, rfl⟩

theorem State.Raised.trans {s t u : State} (h : s.Raised t) (h' : t.Raised u) : s.Raised u := by
  obtain ⟨evs, hq, ha⟩ := h
  obtain ⟨more, hq', ha'⟩ := h'
  refine ⟨evs ++ more, ?_, ?_⟩ <;> rw [State.raise_append]
  · rw [hq', State.raise_queue_congr hq]
  · rw [ha', State.raise_alerts_congr hq ha]

/-- A state with the queue and the alert unit of s serves as s. -/
theorem State.Raised.of_same {s t u : State} (h : t.Raised u) (hq : t.queue = s.queue) (ha : t.alerts = s.alerts) :
    s.Raised u :=
  State.Raised.trans (.of_eq hq ha) h

/-- What raising events keeps of queue and alert unit, is kept. -/
theorem State.Raised.eventsSound {s t : State} (h : s.Raised t) (hs : EventsSound s.queue s.alerts) :
    EventsSound t.queue t.alerts := by
  obtain ⟨evs, hq, ha⟩ := h
  rw [hq, ha]
  exact State.raise_eventsSound hs evs

theorem State.dispose_raised (s : State) (d : Disposition) : s.Raised (s.dispose d) := by
  rw [State.dispose_frame]
  exact .of_eq rfl rfl

theorem State.promote_raised (s : State) : s.Raised s.promote := by
  rw [State.promote_frame]
  exact .of_eq rfl rfl

theorem State.examineBeat_raised (s : State) (b : Beat) : s.Raised (s.examineBeat b) := by
  unfold State.examineBeat
  split
  · exact (State.dispose_raised _ _).of_same rfl rfl
  · dsimp only
    split
    · unfold State.decideBeat
      exact State.Raised.trans (t := State.raise { s with entries := _, checker := none } _)
        ((State.raised_raise _ _).of_same rfl rfl) (State.dispose_raised _ _)
    · exact (State.promote_raised _).of_same rfl rfl

theorem State.settle_raised (s : State) : s.Raised s.settle := by
  unfold State.settle
  rw [State.grant_frame, State.fill_frame]
  refine State.Raised.trans (t := s.examine) ?_ (.of_eq rfl rfl)
  unfold State.examine
  split
  · exact .of_eq rfl rfl
  · exact s.examineBeat_raised _

theorem State.deliver_raised (s : State) (wanted : Bool) (a : HostAnswer) : s.Raised (s.deliver wanted a) := by
  rw [State.deliver_frame]
  exact .of_eq rfl rfl

theorem State.returnToFetch_raised (s : State) (w : Addr) (op : BeatOp) : s.Raised (s.returnToFetch w op) := by
  rw [State.returnToFetch_frame]
  exact .of_eq rfl rfl

theorem State.failHost_raised (s : State) (wanted : Bool) (kind : EventKind) (addr : Addr) (op : BeatOp) :
    s.Raised (s.failHost wanted kind addr op) :=
  ((s.deliver_raised wanted .error).trans (State.raised_raise _ _)).trans (State.returnToFetch_raised _ _ _)

theorem State.endHost_raised (s : State) (wanted : Bool) (addr : Addr) (op : BeatOp) (r : AccessEnd) :
    s.Raised (s.endHost wanted addr op r) := by
  cases r
  · exact ((State.raised_raise _ _).trans (State.deliver_raised _ _ _)).of_same rfl rfl
  · exact s.failHost_raised _ _ _ _
  · exact s.failHost_raised _ _ _ _

theorem State.endFetch_raised (s : State) (r : AccessEnd) : s.Raised (s.endFetch r) := by
  unfold State.endFetch
  split
  · exact .of_eq rfl rfl
  · dsimp only
    split
    · exact .of_eq rfl rfl
    · cases r
      · exact .of_eq rfl rfl
      all_goals exact (State.raised_raise _ _).of_same rfl rfl

/-- The end of an access reaches queue and alert unit by the events that it raises. -/
theorem State.endAccess_raised (s : State) (r : AccessEnd) : s.Raised (s.endAccess r) := by
  cases hb : s.port.bus with
  | none => rw [State.endAccess_of_free hb]; exact .of_eq rfl rfl
  | some a =>
    rw [State.endAccess_eq hb]
    refine State.Raised.trans ?_ (State.settle_raised _)
    unfold State.afterAccess
    cases a.owner
    · exact (State.endHost_raised _ _ _ _ _).of_same rfl rfl
    · exact (State.endFetch_raised _ _).of_same rfl rfl
    · exact .of_eq rfl rfl

theorem State.takeBeat_raised (s : State) (x : Transaction) (data : Word) (strobes : Lanes) :
    s.Raised (s.takeBeat x data strobes) := by
  unfold State.takeBeat
  cases x.course
  · exact (State.settle_raised _).of_same rfl rfl
  all_goals exact .of_eq rfl rfl

theorem State.answered_raised (s : State) : s.Raised s.answered := by
  rw [State.answered_frame]
  exact .of_eq rfl rfl

/-! ## What every step keeps -/

theorem State.supervisorReset_eventsSound (s : State) : EventsSound s.supervisorReset.queue s.supervisorReset.alerts :=
  State.Raised.eventsSound (State.settle_raised _) EventsSound.reset

theorem State.takeSrstnFall_eventsSound {s : State} (h : EventsSound s.queue s.alerts) :
    EventsSound s.takeSrstnFall.queue s.takeSrstnFall.alerts := by
  unfold State.takeSrstnFall
  split
  · exact h
  · exact h
  · exact s.supervisorReset_eventsSound

theorem State.takeHrstnFall_raised (s : State) : s.Raised s.takeHrstnFall := by
  unfold State.takeHrstnFall
  split
  · exact .of_eq rfl rfl
  · exact .of_eq rfl rfl
  · rw [State.hostResetTaken_eq]
    exact ⟨[s.hostResetEvent], rfl, rfl⟩

/-- R145: a tick keeps a class sound. -/
theorem ClassState.sound.ticked {k : ClassState} (h : k.sound) : k.ticked.sound := by
  unfold ClassState.ticked
  split
  · next hp =>
    obtain ⟨-, hpulsing, hshortest, hlongest, hpulse⟩ := h
    refine ClassState.SoundUndriven.drive ⟨?_, hshortest, hlongest, ?_⟩
    · exact hpulsing.imp_right fun h0 => by show k.pulse - 1 = 0; omega
    · show k.pulse - 1 ≤ 16
      omega
  · exact h

theorem ClassState.ticked_count (k : ClassState) : k.ticked.count = k.count := by
  unfold ClassState.ticked
  split <;> rfl

theorem EventsSound.ticked {q : EventQueue} {a : AlertUnit} (h : EventsSound q a) : EventsSound q a.ticked :=
  ⟨h.length, fun c => by rw [AlertUnit.ticked, AlertUnit.get_mapAll, ClassState.ticked_count, h.count],
    fun c => by rw [AlertUnit.ticked, AlertUnit.get_mapAll]; exact (h.sound c).ticked⟩

theorem State.tickOnce_eventsSound {s : State} (h : EventsSound s.queue s.alerts) (order : TickOrder) :
    EventsSound (s.tickOnce order).queue (s.tickOnce order).alerts := by
  cases order
  · exact State.raise_eventsSound (s := State.alertTick { s.countTick with entries := s.countTick.tickEntries }) h.ticked _
  · exact (State.raise_eventsSound (s := { s.countTick with entries := s.countTick.tickEntries }) h _).ticked

theorem State.sourcePeriod_eventsSound {s : State} (h : EventsSound s.queue s.alerts) (order : TickOrder) :
    EventsSound (s.sourcePeriod order).queue (s.sourcePeriod order).alerts := by
  unfold State.sourcePeriod
  split
  · exact State.tickOnce_eventsSound h order
  · exact h

theorem State.gapExpires_raised (s : State) : s.Raised s.gapExpires := by
  unfold State.gapExpires
  dsimp only
  split
  · exact (State.raised_raise _ _).of_same rfl rfl
  · exact .of_eq rfl rfl

theorem State.countGap_raised (s : State) : s.Raised s.countGap := by
  unfold State.countGap
  split_ifs
  · exact .of_eq rfl rfl
  · exact s.gapExpires_raised
  · exact .of_eq rfl rfl

theorem State.ircPeriod_eventsSound {s : State} (h : EventsSound s.queue s.alerts) (order : TickOrder) :
    EventsSound (s.ircPeriod order).queue (s.ircPeriod order).alerts := by
  rw [State.ircPeriod_eq]
  refine (State.countGap_raised _).eventsSound ?_
  split
  · exact State.sourcePeriod_eventsSound h order
  · exact h

theorem State.refclkEdge_eventsSound {s : State} (h : EventsSound s.queue s.alerts) (order : TickOrder) :
    EventsSound (s.refclkEdge order).queue (s.refclkEdge order).alerts := by
  unfold State.refclkEdge
  dsimp only
  split
  · exact State.sourcePeriod_eventsSound (s := { s with time := s.time.edge }) h order
  · exact h

/-- R134, R142: the records acknowledged leave queue and counts together. -/
theorem State.acknowledge_eventsSound {s : State} (h : EventsSound s.queue s.alerts) (n : Seq) :
    EventsSound (s.acknowledge n).queue (s.acknowledge n).alerts := by
  refine ⟨(List.length_dropWhile_le _ _).trans h.length, fun c => ?_, fun c => AlertUnit.take_sound (h.sound c) _⟩
  have hsplit : s.queue.records =
      s.queue.acknowledged n ++ s.queue.records.dropWhile fun r => r.atOrBefore n := List.takeWhile_append_dropWhile.symm
  have hcount := h.count c
  rw [hsplit, List.countP_append] at hcount
  show ((s.alerts.take _).get c).count = _
  rw [AlertUnit.take_get, AlertUnit.removals_get, ClassState.drive_count]
  show (s.alerts.get c).count - _ = _
  rw [hcount, Nat.add_sub_cancel_left]
  rfl

theorem ClassState.configured_sound {k : ClassState} (h : k.sound) {maskOpen : Bool} {mode : LineMode} {n : Nat}
    (h1 : 1 ≤ n) (h15 : n ≤ 15) : (k.configured maskOpen mode n).sound := by
  obtain ⟨-, -, -, -, hpulse⟩ := h
  refine ClassState.SoundUndriven.drive ⟨?_, h1, h15, ?_⟩
  · cases maskOpen <;> cases mode <;> simp
  · dsimp only
    split
    · exact hpulse
    · exact Nat.zero_le _

theorem EventsSound.set {q : EventQueue} {a : AlertUnit} (h : EventsSound q a) (c : ClassNo) {k : ClassState}
    (hcount : k.count = (a.get c).count) (hsound : k.sound) : EventsSound q (a.set c k) := by
  refine ⟨h.length, fun d => ?_, fun d => ?_⟩ <;> rw [AlertUnit.get_set] <;> split
  · next hd => rw [hcount, hd, h.count]
  · exact h.count d
  · exact hsound
  · exact h.sound d

/-- R151: each class after CLEAR MISSED. -/
theorem AlertUnit.clearMissed_get (a : AlertUnit) (set : BitVec 4) (c : ClassNo) :
    (a.clearMissed set).get c = if set.getLsbD c.val then (a.get c).cleared else a.get c := by
  match c with
  | 0 | 1 | 2 | 3 => rfl

theorem ClassState.cleared_sound {k : ClassState} (h : k.sound) : k.cleared.sound :=
  ClassState.SoundUndriven.drive ⟨h.undriven.1, h.undriven.2, h.undriven.3, h.undriven.4⟩

theorem EventsSound.clearMissed {q : EventQueue} {a : AlertUnit} (h : EventsSound q a) (set : BitVec 4) :
    EventsSound q (a.clearMissed set) := by
  refine ⟨h.length, fun c => ?_, fun c => ?_⟩ <;> rw [AlertUnit.clearMissed_get] <;> split
  · exact h.count c
  · exact h.count c
  · exact ClassState.cleared_sound (h.sound c)
  · exact h.sound c

theorem State.beginFetch_raised (s : State) (i : Nat) : s.Raised (s.beginFetch i) := by
  rw [State.beginFetch_frame]
  exact .of_eq rfl rfl

theorem Performed.eventsSound {s u : State} {c : Instr} {r : Reply} (h : Performed s c u r)
    (hs : EventsSound s.queue s.alerts) : EventsSound u.queue u.alerts := by
  cases h
  case armed | armedPending | disarmed | clearedWatching | suspended | resumed =>
    exact ((State.settle_raised _).of_same rfl rfl).eventsSound hs
  case armedFetching | resynced => exact ((s.beginFetch_raised _).trans (State.settle_raised _)).eventsSound hs
  case acknowledged => exact State.acknowledge_eventsSound hs _
  case configured c maskOpen mode n h1 h15 _ => exact hs.set c rfl (ClassState.configured_sound (hs.sound c) h1 h15)
  case marksCleared => exact hs.clearMissed _
  case assigned => exact ⟨hs.length, hs.count, hs.sound⟩
  all_goals exact hs

theorem Effect.eventsSound {s t : State} {c : Instr} (hs : EventsSound s.queue s.alerts) (h : Effect s c t) :
    EventsSound t.queue t.alerts := by
  have ha : EventsSound s.answered.queue s.answered.alerts := s.answered_raised.eventsSound hs
  cases h
  case powerUp => exact EventsSound.reset
  case answered => exact ha
  case srstnFall => exact State.takeSrstnFall_eventsSound ha
  case srstnRise => exact ha
  case hostReset => exact (State.takeHrstnFall_raised s.quiet).eventsSound hs
  case beatTaken => exact (State.takeBeat_raised _ _ _ _).eventsSound ha
  case accessEnded => exact (State.endAccess_raised _ _).eventsSound ha
  case ticked order _ _ => exact State.tickOnce_eventsSound (s := s.quiet) hs order
  case gapExpired => exact (State.gapExpires_raised s.quiet).eventsSound hs
  case refclkEdge order _ => exact State.refclkEdge_eventsSound (s := s.quiet) hs order
  case csnRiseReset => exact State.supervisorReset_eventsSound _
  case performed hu => exact hu.eventsSound hs
  all_goals exact hs

/-- Queue and alert unit are kept sound by all that a step is made of. -/
theorem eventsSound_invariant : StepInvariant fun s => EventsSound s.queue s.alerts where
  dequeue _ _ h := h
  count _ _ h := h
  effect _ _ _ hs h := h.eventsSound hs
  srstn s low h := by
    rcases s.sampleSrstn_cases low with hc | ⟨-, -, hc⟩ | ⟨-, -, hc⟩ <;> rw [hc]
    · exact h
    · exact State.takeSrstnFall_eventsSound h
    · exact h
  hrstn s low h := by
    rcases s.sampleHrstn_cases low with hc | ⟨-, -, hc⟩ | ⟨-, -, hc⟩ <;> rw [hc]
    · exact h
    · exact s.takeHrstnFall_raised.eventsSound h
    · exact h
  period s h := by
    cases hp : s.power with
    | powerUpReset => simpa only [State.bclkPeriod, hp] using h
    | initialising n =>
      simp only [State.bclkPeriod, hp]
      split <;> exact h
    | running =>
      rcases State.bclkPeriod_cases hp with ⟨-, hs⟩ | ⟨a, -, ⟨-, hs⟩ | ⟨-, hs⟩⟩ <;> rw [hs]
      · exact h
      · exact h
      · exact (s.endAccess_raised _).eventsSound h
  give s h := by rw [State.giveAnswer_frame]; exact h
  irc _ order h := State.ircPeriod_eventsSound h order
  sckFalls _ h := h
  sckIgnored _ h := h
  sckSamples _ _ _ _ h := h

/-- Settles O6: the step keeps what all it is made of keeps. -/
theorem stepKeepsQueueAndAlertsSound : Obligations.StepKeepsQueueAndAlertsSound := by
  intro s t hq ha ht
  rw [← State.eventsSound_iff]
  exact eventsSound_invariant.step (s.eventsSound_iff.2 ⟨hq, ha⟩) ht

end Sys2Proof.Machine
end

section
/-! One entry on one beat: the verdicts (R36 to R46), and the completion effects (R47 to R51). -/

namespace Sys2Proof.Machine

/-! ## Merged values (R36) -/

theorem getLsbD_laneBits (strobes : Lanes) (i : Nat) (h : i < 32) :
    (laneBits strobes).getLsbD i = strobes.getLsbD (i / 8) := by
  have hlane : ∀ (b : Bool) (j : Nat), j < 8 → (if b then 0xFF#8 else 0#8).getLsbD j = b := by decide
  have hdiv : i / 8 = 0 ∧ i < 8 ∨ i / 8 = 1 ∧ 8 ≤ i ∧ i < 16 ∨ i / 8 = 2 ∧ 16 ≤ i ∧ i < 24 ∨ i / 8 = 3 ∧ 24 ≤ i := by omega
  simp only [laneBits, BitVec.getLsbD_append]
  rcases hdiv with ⟨hq, hi⟩ | ⟨hq, hlo, hi⟩ | ⟨hq, hlo, hi⟩ | ⟨hq, hlo⟩ <;> rw [hq]
  · rw [if_pos hi, hlane _ _ hi]
  · rw [if_neg (by omega), if_pos (by omega), hlane _ _ (by omega)]
  · rw [if_neg (by omega), if_neg (by omega), if_pos (by omega), hlane _ _ (by omega)]
  · rw [if_neg (by omega), if_neg (by omega), if_neg (by omega), hlane _ _ (by omega)]

/-- R36: a strobed lane comes from the data, any other bit from the shadow. -/
theorem getLsbD_merged (shadow data : Word) (strobes : Lanes) (i : Nat) (h : i < 32) :
    (merged shadow data strobes).getLsbD i = if strobes.getLsbD (i / 8) then data.getLsbD i else shadow.getLsbD i := by
  simp only [merged, BitVec.getLsbD_or, BitVec.getLsbD_and, BitVec.getLsbD_not, getLsbD_laneBits strobes i h, h,
    decide_true, Bool.true_and]
  cases strobes.getLsbD (i / 8) <;> simp

theorem merged_zero (shadow data : Word) : merged shadow data 0 = shadow := by
  refine BitVec.eq_of_getLsbD_eq fun i hi => ?_
  rw [getLsbD_merged shadow data 0 i hi]
  simp

/-! ## Verdicts (R37 to R43) -/

section Verdicts
variable {e : Entry} {d : Descriptor} {addr : Addr} {op : BeatOp}

theorem Descriptor.conforming_iff (d : Descriptor) (v : Word) :
    d.conforming v = true ↔ v &&& d.mask = d.reference &&& d.mask := by
  simp [Descriptor.conforming]

/-- An acting CONDITION entry on a write. -/
theorem Entry.judge_condition {data : Word} {strobes : Lanes} (hd : e.desc = some d) (hk : d.kind = .condition)
    (ha : e.state = .armed) (hc : e.covers addr .write = true) :
    e.judge addr (.write data strobes) = judgeCondition d e (.write data strobes) := by
  simp [Entry.judge, hd, hk, ha, BeatOp.dir, hc]

/-- Settles O17: the merged value lane by lane, the verdict by the two values that it compares. -/
theorem conditionTripsOnBreakingWrite : Obligations.ConditionTripsOnBreakingWrite := by
  refine ⟨getLsbD_merged, ?_⟩
  intro e d addr data strobes hd hk ha hc m breaks
  refine ⟨fun hb => ?_, fun hb => ?_, fun h0 hb => ?_⟩
  · rw [Entry.judge_condition hd hk ha hc, judgeCondition,
      if_pos (by simpa only [Bool.and_eq_true, Bool.not_eq_true', ← Bool.not_eq_true, Descriptor.conforming_iff] using hb)]
  · rw [Entry.judge_condition hd hk ha hc, judgeCondition,
      if_neg (by simpa only [Bool.and_eq_true, Bool.not_eq_true', ← Bool.not_eq_true, Descriptor.conforming_iff] using hb)]
    rfl
  · subst h0
    obtain ⟨hconforms, hbroken⟩ := hb
    exact hbroken (by rwa [show m = e.rt.shadow from merged_zero _ _])

/-- An entry that does not act on a beat gives no verdict. -/
theorem Entry.judge_of_not_acting (h : e.desc = none ∨ e.state ≠ .armed ∨ e.covers addr op.dir = false) :
    e.judge addr op = .none e := by
  unfold Entry.judge
  split
  · rfl
  · next d hd =>
    rw [if_neg]
    rw [Bool.and_eq_true, decide_eq_true_eq]
    rintro ⟨harmed, hcovers⟩
    rcases h with h | h | h
    · simp [hd] at h
    · exact h harmed
    · simp [hcovers] at h

theorem Entry.judge_deadline (hd : e.desc = some d) (hk : d.kind = .deadline) : e.judge addr op = .none e := by
  simp [Entry.judge, hd, hk]

theorem Entry.judge_not_qualifying (hd : e.desc = some d) (hk : d.kind = .count) (hq : qualifies d e op = false) :
    e.judge addr op = .none e := by
  simp [Entry.judge, hd, hk, hq]

/-- With change-only a read does not qualify, nor a write that leaves the masked value. -/
theorem not_qualifies (hc : d.changeOnly = true)
    (h : op = .read ∨ ∃ data strobes, op = .write data strobes ∧
      merged e.rt.shadow data strobes &&& d.mask = e.rt.shadow &&& d.mask) : qualifies d e op = false := by
  rcases h with rfl | ⟨data, strobes, rfl, h⟩
  · simp [qualifies, hc]
  · simp [qualifies, hc, Descriptor.differs, h]

end Verdicts

/-! ## A RATE entry (R41) -/

/-- The beat counts on the entry: an acting COUNT entry in RATE mode for which it qualifies. -/
structure Entry.CountsRate (e : Entry) (d : Descriptor) (addr : Addr) (op : BeatOp) : Prop where
  desc : e.desc = some d
  kind : d.kind = .count
  mode : d.countMode = .rate
  armed : e.state = .armed
  covers : e.covers addr op.dir = true
  qualifying : qualifies d e op = true

namespace Entry.CountsRate
variable {e : Entry} {d : Descriptor} {addr : Addr} {op : BeatOp}

theorem judge_eq (h : e.CountsRate d addr op) : e.judge addr op = judgeRate d e := by
  simp [Entry.judge, judgeCount, h.desc, h.kind, h.mode, h.armed, h.covers, h.qualifying]

theorem judged (h : e.CountsRate d addr op) : (e.judge addr op).entry.CountsRate d addr op := by
  obtain ⟨hstate, hdesc, hshadow⟩ := e.judge_keeps addr op
  exact
    { h with
      desc := hdesc.trans h.desc
      armed := hstate.trans h.armed
      covers := (Entry.covers_congr hstate hdesc addr op.dir).trans h.covers
      qualifying := (qualifies_congr hshadow d op).trans h.qualifying }

theorem afterBeats (h : e.CountsRate d addr op) (k : Nat) : (e.afterBeats addr op k).CountsRate d addr op := by
  induction k with
  | zero => exact h
  | succ k ih =>
    rw [Entry.afterBeats_succ]
    exact ih.judged

end Entry.CountsRate

section Rate
variable {e : Entry} {d : Descriptor} {addr : Addr} {op : BeatOp}

theorem judgeRate_within (h : 0 < e.rt.allowance) :
    judgeRate d e = .none { e with rt := { e.rt with allowance := e.rt.allowance - 1 } } :=
  if_pos h

theorem judgeRate_first (h : e.rt.allowance = 0) (hw : e.rt.windowTripped = false) :
    judgeRate d e = ⟨{ e with rt := { e.rt with windowTripped := true } }, some .rateExceeded, some d.action⟩ := by
  simp [judgeRate, h, hw]

theorem judgeRate_further (h : e.rt.allowance = 0) (hw : e.rt.windowTripped = true) :
    judgeRate d e =
      ⟨{ e with rt := { e.rt with excess := min (e.rt.excess + 1) 65535 } }, none, some d.action⟩ := by
  simp [judgeRate, h, hw, saturatingSucc]

/-- The closed form of a run of beats: the allowance goes down to zero, and the window has tripped beyond it. -/
theorem Entry.CountsRate.closed_form (h : e.CountsRate d addr op) (hw : e.rt.windowTripped = false) (k : Nat) :
    (e.afterBeats addr op k).rt.allowance = e.rt.allowance - k ∧
      (e.afterBeats addr op k).rt.windowTripped = decide (e.rt.allowance < k) := by
  induction k with
  | zero => simpa using hw
  | succ k ih =>
    obtain ⟨hallowance, htripped⟩ := ih
    rw [Entry.afterBeats_succ, (h.afterBeats k).judge_eq]
    rcases Nat.lt_trichotomy k e.rt.allowance with hk | hk | hk
    · rw [judgeRate_within (by omega)]
      refine ⟨by show _ - 1 = _; omega, htripped.trans ?_⟩
      rw [decide_eq_decide]
      omega
    · rw [judgeRate_first (by omega) (by rw [htripped]; simp; omega)]
      exact ⟨by show (e.afterBeats addr op k).rt.allowance = _; omega, by simp [hk]⟩
    · rw [judgeRate_further (by omega) (by rw [htripped]; simpa using hk)]
      exact ⟨by show (e.afterBeats addr op k).rt.allowance = _; omega, by rw [htripped, decide_eq_decide]; omega⟩

theorem Entry.CountsRate.trips_once (h : e.CountsRate d addr op) (hw : e.rt.windowTripped = false) (k : Nat) :
    ((e.afterBeats addr op k).judge addr op).trip = if k = e.rt.allowance then some .rateExceeded else none := by
  obtain ⟨hallowance, htripped⟩ := h.closed_form hw k
  rw [(h.afterBeats k).judge_eq]
  rcases Nat.lt_trichotomy k e.rt.allowance with hk | hk | hk
  · rw [judgeRate_within (by omega), if_neg (by omega)]
    rfl
  · rw [judgeRate_first (by omega) (by rw [htripped]; simp; omega), if_pos hk]
  · rw [judgeRate_further (by omega) (by rw [htripped]; simpa using hk), if_neg (by omega)]

end Rate

/-- Settles O19: the beats without a verdict by their reasons, one beat by the three cases of `judgeRate`, the run of beats by
its closed form. -/
theorem rateTripsOnceBeyondAllowance : Obligations.RateTripsOnceBeyondAllowance := by
  refine ⟨fun e addr op => ⟨Entry.judge_of_not_acting, fun d hd => ⟨Entry.judge_deadline hd, fun hk hc h => ?_⟩⟩, ?_⟩
  · exact Entry.judge_not_qualifying hd hk (not_qualifies hc h)
  · intro e d addr op hdesc hkind hmode harmed hcovers hqual after
    have h : e.CountsRate d addr op := ⟨hdesc, hkind, hmode, harmed, hcovers, (qualifies_iff d e op).2 hqual⟩
    refine ⟨fun hlt => ?_, fun h0 hw => ?_, fun h0 hw => ?_, h.trips_once⟩ <;> rw [h.judge_eq]
    · exact judgeRate_within hlt
    · exact judgeRate_first h0 hw
    · exact judgeRate_further h0 hw

/-! ## The disposition (R44) -/

theorem dispositionOf_rejected (actions : List Action) : dispositionOf actions = .rejected ↔ .reject ∈ actions := by
  unfold dispositionOf
  split_ifs with h1 h2 <;> simpa using h1

theorem dispositionOf_dropped (actions : List Action) :
    dispositionOf actions = .dropped ↔ .reject ∉ actions ∧ .drop ∈ actions := by
  unfold dispositionOf
  split_ifs with h1 h2 <;> simp_all

theorem dispositionOf_passed (actions : List Action) :
    dispositionOf actions = .passed ↔ .reject ∉ actions ∧ .drop ∉ actions := by
  unfold dispositionOf
  split_ifs with h1 h2 <;> simp_all

/-- A verdict's action is that of the descriptor of a covering entry. -/
theorem Entry.judge_action {e : Entry} {addr : Addr} {op : BeatOp} {a : Action} (h : (e.judge addr op).action = some a) :
    ∃ d, e.desc = some d ∧ d.action = a ∧ e.covers addr op.dir = true := by
  unfold Entry.judge at h
  split at h
  · simp at h
  · next d hd =>
    split at h
    · next hact =>
      refine ⟨d, hd, ?_, (Bool.and_eq_true_iff.mp hact).2⟩
      simp only [judgeCondition, judgeCount, judgeTotal, judgeRate] at h
      repeat' split at h
      all_goals simp_all
    · simp at h

theorem Entry.sound.valid {e : Entry} {d : Descriptor} (h : e.sound = true) (hd : e.desc = some d) : d.valid = true := by
  simp only [Entry.sound, hd, Bool.and_eq_true] at h
  exact h.1

/-- Field 5 of Table 1-2: DROP is asked for writes alone. -/
theorem Descriptor.sense_of_drop {d : Descriptor} (h : d.valid = true) (ha : d.action = .drop) : d.sense = .writes := by
  simp only [Descriptor.valid, actionAllowed, ha, Bool.and_eq_true] at h
  simpa using h.1.1.1.1.1.1.2.2

theorem Entry.covers_watches {e : Entry} {d : Descriptor} {addr : Addr} {dir : Direction} (h : e.covers addr dir = true)
    (hd : e.desc = some d) : d.watches addr dir = true := by
  simpa [Entry.covers, hd] using (Bool.and_eq_true_iff.mp h).2

/-- On sound entries no read is DROPPED. -/
theorem disposition_of_read {es : List Entry} (h : ∀ e ∈ es, e.sound = true) (addr : Addr) :
    dispositionOf (actionsOn es addr .read) ≠ .dropped := by
  rw [Ne, dispositionOf_dropped]
  rintro ⟨-, hdrop⟩
  obtain ⟨k, hk, ha⟩ := mem_collectFrom.mp hdrop
  obtain ⟨d, hd, hact, hcovers⟩ := Entry.judge_action (Option.mem_toList.mp ha)
  have hsense := Descriptor.sense_of_drop (Entry.sound.valid (h _ (List.getElem_mem hk)) hd) hact
  have hwatches := Entry.covers_watches hcovers hd
  simp [Descriptor.watches, hsense, BeatOp.dir, Sense.selects] at hwatches

/-- Settles O20: the three outcomes by what the list of actions holds. -/
theorem dispositionIsTheMostSevereAction : Obligations.DispositionIsTheMostSevereAction :=
  ⟨fun actions => ⟨dispositionOf_rejected actions, dispositionOf_dropped actions, dispositionOf_passed actions⟩,
    fun _ addr ⟨_, hsound⟩ => disposition_of_read hsound addr⟩

/-! ## Completion effects (R47 to R51) -/

section Completion
variable {e : Entry} {addr : Addr} {dir : Direction} {data : Word} {mode : PartMode} {op : BeatOp}

theorem Entry.shadowsWord_iff :
    e.shadowsWord addr = true ↔ e.shadowBearing = true ∧ e.state = .armed ∧ e.base = addr := by
  simp [Entry.shadowsWord, Entry.shadowValid, and_assoc]

theorem Entry.diverges_iff :
    e.diverges addr data = true ↔
      (e.shadowBearing = true ∧ e.state = .armed ∧ e.base = addr) ∧ (∃ d ∈ e.desc, d.readBack = true) ∧
        data ≠ e.rt.shadow := by
  rw [← Entry.shadowsWord_iff]
  simp [Entry.diverges, Option.any_eq_true, and_assoc]

theorem Entry.followsBeat_iff :
    e.followsBeat addr dir = true ↔ ∃ d ∈ e.desc, d.kind = .deadline ∧ e.covers addr dir = true := by
  simp only [Entry.followsBeat, Bool.and_eq_true, Option.any_eq_true, Descriptor.isDeadline, decide_eq_true_eq]
  exact ⟨fun ⟨hc, d, hd, hk⟩ => ⟨d, hd, hk, hc⟩, fun ⟨d, hd, hk, hc⟩ => ⟨hc, d, hd, hk⟩⟩

/-- A DEADLINE entry bears no shadow. -/
theorem Entry.shadowBearing_of_deadline {d : Descriptor} (hd : e.desc = some d) (hk : d.kind = .deadline) :
    e.shadowBearing = false := by
  simp [Entry.shadowBearing, hd, Descriptor.shadowBearing, hk]

theorem Entry.followsBeat_of_shadowBearing (h : e.shadowBearing = true) : e.followsBeat addr dir = false := by
  rw [← Bool.not_eq_true, Entry.followsBeat_iff]
  rintro ⟨d, hd, hk, -⟩
  rw [Entry.shadowBearing_of_deadline hd hk] at h
  cases h

/-- A sound DEADLINE entry that covers a beat is ARMED or LAPSED. -/
theorem Entry.state_of_deadline {d : Descriptor} (h : e.sound = true) (hd : e.desc = some d) (hk : d.kind = .deadline)
    (hc : e.covers addr dir = true) : e.state = .armed ∨ e.state = .lapsed := by
  have hwatching := (Bool.and_eq_true_iff.mp hc).1
  have hbears : d.shadowBearing = false := by simp [Descriptor.shadowBearing, hk]
  cases hs : e.state <;> simp [Entry.sound, hd, hs, hbears, EntryState.watching] at h hwatching ⊢

/-- R47: a write reaches the shadow of its word. -/
theorem Entry.completed_write (h : e.shadowsWord addr = true) (wdata : Word) (strobes : Lanes) :
    e.completed mode addr (.write wdata strobes) data =
      { e with rt := { e.rt with shadow := merged e.rt.shadow wdata strobes } } := by
  simp [Entry.completed, h]

/-- R48: a beat that a DEADLINE entry follows. -/
theorem Entry.completed_followed (h : e.followsBeat addr op.dir = true) (hs : e.shadowBearing = false) :
    e.completed .monitoring addr op data = e.followed := by
  cases op <;> simp_all [Entry.completed, Entry.diverges, Entry.shadowsWord, Entry.shadowValid, BeatOp.dir]

/-- R50: a read that diverges. -/
theorem Entry.completed_diverged (h : e.diverges addr data = true) :
    e.completed .monitoring addr .read data = { e with rt := { e.rt with shadow := data } } := by
  simp [Entry.completed, h]

/-- A beat that nothing of this concerns. -/
theorem Entry.completed_of_calm (hw : op.dir = .write → e.shadowsWord addr = false)
    (hcalm : mode = .suspended ∨ e.followsBeat addr op.dir = false ∧ ¬(op = .read ∧ e.diverges addr data = true)) :
    e.completed mode addr op data = e := by
  cases op <;> cases mode <;> simp_all [Entry.completed, BeatOp.dir]

theorem Entry.completionEvents_of_calm {i : Nat} {now : TickCount}
    (hcalm : mode = .suspended ∨ e.followsBeat addr op.dir = false ∧ ¬(op = .read ∧ e.diverges addr data = true)) :
    e.completionEvents i mode addr op data now = [] := by
  cases mode <;> simp_all [Entry.completionEvents]

theorem Entry.followed_of_deadline {d : Descriptor} (hd : e.desc = some d) (hk : d.kind = .deadline) :
    e.followed = ⟨.armed, some d, { Runtime.zero with remaining := d.reload.toNat, spared := true }⟩ := by
  simp [Entry.followed, Entry.restarted, hd, Descriptor.startValues, Descriptor.isDeadline, Descriptor.isRate, hk,
    Runtime.zero]

theorem Entry.completionEvents_lapsed {i : Nat} {now : TickCount} (hs : e.state = .lapsed)
    (h : e.followsBeat addr op.dir = true) :
    e.completionEvents i .monitoring addr op data now =
      [{ kind := .deadlineResumed, cls := e.cls, tick := now, entry := some i, address := some addr,
         detail := some (lapseLength now e.rt.lapseTick) }] := by
  simp [Entry.completionEvents, hs, h]

theorem Entry.completionEvents_diverged {i : Nat} {now : TickCount} (h : e.diverges addr data = true) :
    e.completionEvents i .monitoring addr .read data now =
      [{ kind := .readbackDiverged, cls := e.cls, tick := now, entry := some i, address := some addr,
         old := some e.rt.shadow, new := some data, detail := some (e.divergenceDetail data) }] := by
  have hstate := (Entry.diverges_iff.mp h).1.2.1
  simp [Entry.completionEvents, hstate, h]

theorem Entry.divergenceDetail_eq_one :
    e.divergenceDetail data = 1 ↔
      ∃ d ∈ e.desc, d.kind = .condition ∧ d.conforming e.rt.shadow = true ∧ d.conforming data = false := by
  unfold Entry.divergenceDetail
  rw [ite_eq_left_iff]
  simp [Option.any_eq_true, and_assoc]

theorem Entry.divergenceDetail_cases : e.divergenceDetail data = 0 ∨ e.divergenceDetail data = 1 := by
  unfold Entry.divergenceDetail
  split
  · exact .inr rfl
  · exact .inl rfl

end Completion

/-- Settles O22: the four effects of a completion by what the entry is to the beat. -/
theorem completionReachesEntries : Obligations.CompletionReachesEntries := by
  intro e i mode addr op data now hsound f events onWord deadline checks
  have hcalm : ∀ h : ¬deadline ∧ ¬checks,
      e.followsBeat addr op.dir = false ∧ ¬(op = .read ∧ e.diverges addr data = true) := by
    rintro ⟨hdeadline, hchecks⟩
    refine ⟨?_, fun ⟨hop, hdiverges⟩ => ?_⟩
    · rwa [← Bool.not_eq_true, Entry.followsBeat_iff]
    · obtain ⟨hword, hread⟩ := Entry.diverges_iff.mp hdiverges
      exact hchecks ⟨hword, hop, hread⟩
  refine ⟨fun hword wdata strobes hop => ?_, fun hm d hd hk hc => ?_, fun hm hchecks => ?_, fun hnot h => ?_⟩
  · subst hop
    refine ⟨Entry.completed_write (Entry.shadowsWord_iff.mpr hword) wdata strobes, Entry.completionEvents_of_calm (.inr ?_)⟩
    exact ⟨Entry.followsBeat_of_shadowBearing hword.1, fun h => nomatch h.1⟩
  · subst hm
    have hfollows : e.followsBeat addr op.dir = true := Entry.followsBeat_iff.mpr ⟨d, hd, hk, hc⟩
    have hbears := Entry.shadowBearing_of_deadline hd hk
    refine ⟨(Entry.completed_followed hfollows hbears).trans (Entry.followed_of_deadline hd hk), fun ha => ?_, fun hl => ?_⟩
    · have hdiverges : e.diverges addr data = false := by simp [Entry.diverges, Entry.shadowsWord, Entry.shadowValid, hbears]
      simp [events, Entry.completionEvents, ha, hdiverges]
    · have hcls : e.cls = d.cls := by simp [Entry.cls, hd]
      exact (Entry.completionEvents_lapsed hl hfollows).trans (by rw [hcls]; rfl)
  · obtain ⟨hword, rfl, hread⟩ := hchecks
    subst hm
    have hdiverges : e.diverges addr data = true := Entry.diverges_iff.mpr ⟨hword, hread⟩
    exact ⟨Entry.completed_diverged hdiverges, _, Entry.completionEvents_diverged hdiverges, Entry.divergenceDetail_eq_one,
      Entry.divergenceDetail_cases⟩
  · refine ⟨Entry.completed_of_calm (fun hw => ?_) (h.imp_right hcalm), Entry.completionEvents_of_calm (h.imp_right hcalm)⟩
    rw [← Bool.not_eq_true, Entry.shadowsWord_iff]
    exact fun hword => hnot ⟨hword, hw⟩

end Sys2Proof.Machine
end

section
/-! What the link answers: the checks of a frame (R157 to R160), the reports (R165 to R174), the descriptor's bytes (R4) and the
response sent (R161). -/

namespace Sys2Proof.Machine

/-! ## The checks of a frame (R159, R160) -/

theorem exec_badFrame {s : State} {byte : Byte} {l : Link} (ht : s.link.takesByte byte = true)
    (hl : s.link.refuseFrame byte = some l) : exec (.badFrame byte) s = .next (s.quiet.byteDone l 0) := by
  show execBadFrame byte s = _
  simp [execBadFrame, ht, hl]

theorem Link.takesByte_of_begins {l : Link} {byte : Byte} (hp : l.phase = .request)
    (hb : l.bits.isPrefixOf (bitsOf byte) = true) : l.takesByte byte = true := by
  simp [Link.takesByte, Link.canBe, hp, hb]

/-- R157: a length above 40 ends the frame. -/
theorem Link.refuseFrame_of_length {l : Link} {byte : Byte} (hp : l.position = 1) (hb : 40 < byte.toNat) :
    l.refuseFrame byte =
      some { l with phase := .turnaround, position := l.position + 1, length := byte, crc := crcByte l.crc byte
                    response := Reply.badFrame.frame, bits := [] } := by
  simp [Link.refuseFrame, hp, maxPayload, hb]

/-- R159: so does a CRC byte that differs from the running CRC. -/
theorem Link.refuseFrame_of_crc {l : Link} {byte : Byte} (h2 : 2 ≤ l.position) (hp : l.position = l.length.toNat + 2)
    (hb : byte ≠ l.crc) :
    l.refuseFrame byte =
      some { l with phase := .turnaround, position := l.position + 1, response := Reply.badFrame.frame, bits := [] } := by
  unfold Link.refuseFrame
  split
  · next h0 => omega
  · next h1 => omega
  · rw [if_pos ⟨hp, hb⟩]

/-- Settles O42: the two ends of a bad frame. -/
theorem badFrameChangesNothing : Obligations.BadFrameChangesNothing := by
  rintro s byte hphase hbits (⟨hp, hb⟩ | ⟨h2, hp, hb⟩)
  · exact ⟨_, exec_badFrame (Link.takesByte_of_begins hphase hbits) (Link.refuseFrame_of_length hp hb), rfl, rfl, rfl, rfl,
      rfl, rfl⟩
  · exact ⟨_, exec_badFrame (Link.takesByte_of_begins hphase hbits) (Link.refuseFrame_of_crc h2 hp hb), rfl, rfl, rfl, rfl,
      rfl, rfl⟩

theorem exec_badCommand {s : State} {code : Byte} {p : List Byte} (ha : s.link.awaits code p = true)
    (hc : code ∉ requestCodes) : exec (.badCommand code p) s = .next (s.quiet.respond code p .badCommand) := by
  show execBadCommand code p s = _
  simp [execBadCommand, ha, hc]

/-- R160, check 2. -/
theorem exec_request_of_length {c : Instr} {code : Byte} {n : Nat} {p : List Byte} {s : State}
    (h : requestParts c = some (code, n, p)) (ha : s.link.awaits code p = true) (hn : p.length ≠ n) :
    exec c s = .next (s.quiet.respond code p (.badParam 0)) := by
  rw [exec_request h, State.serve_of_length (s := s.quiet) ha hn]

/-- R160, check 3: the entry requests are those with the codes of the entries. -/
theorem performance_of_index {c : Instr} {code : Byte} {n : Nat} {p : List Byte} (h : requestParts c = some (code, n, p))
    (hc : entryRequest code = true) (hi : 48 ≤ (p.getD 0 0).toNat) (s : State) : performance c s = (s, .badIndex) := by
  have honEntry (perform : Nat → State → State × Reply) : onEntry p perform s = (s, .badIndex) :=
    if_neg (Nat.not_lt.mpr hi)
  cases c <;> cases h
  case loadEntry | armEntry | disarmEntry | clearEntry | resyncEntry | queryEntry => exact honEntry _
  all_goals exact absurd hc (by decide)

/-- Settles O43: the three checks in turn. -/
theorem frameChecksComeFirst : Obligations.FrameChecksComeFirst := by
  intro s code p ha
  refine ⟨exec_badCommand ha, fun c n h => ⟨exec_request_of_length h ha, fun hn hc hi => ?_⟩⟩
  exact exec_request_eq h ha hn (performance_of_index h hc hi _)

/-- Settles O44: a frame of another length is refused, any other is answered with what its performance gives, which changes
nothing unless it is OK. -/
theorem refusedRequestChangesNothing : Obligations.RefusedRequestChangesNothing := by
  intro c s code n p h ha
  by_cases hn : p.length = n
  · have hperformed := performance_performed c s.quiet
    obtain ⟨u, r, hperform⟩ : ∃ u r, performance c s.quiet = (u, r) := ⟨_, _, rfl⟩
    rw [hperform] at hperformed
    refine ⟨_, r, exec_request_eq h ha hn hperform, rfl, rfl, rfl, fun hr => ?_⟩
    rw [show u = s.quiet from hperformed.eq_of_status hr]
    rfl
  · exact ⟨_, .badParam 0, exec_request_of_length h ha hn, rfl, rfl, rfl, fun _ => rfl⟩

/-! ## READ STATUS and QUERY ENTRY (R166, R172) -/

/-- The bits of the flags byte of the entry block (Table 9-9). -/
theorem flags_bits : ∀ (status : BitVec 2) (tripped conforming valid : Bool),
    let flags : Byte :=
      (0#3) ++ status ++ BitVec.ofBool tripped ++ BitVec.ofBool conforming ++ BitVec.ofBool valid
    flags.getLsbD 0 = valid ∧ flags.getLsbD 1 = conforming ∧ flags.getLsbD 2 = tripped ∧ flags.extractLsb' 3 2 = status ∧
      flags.extractLsb' 5 3 = 0 := by
  decide

theorem Entry.shadowValid_iff (e : Entry) : e.shadowValid = true ↔ e.shadowBearing = true ∧ e.state = .armed := by
  simp [Entry.shadowValid]

theorem Entry.conformingFlag_iff (e : Entry) :
    e.conformingFlag = true ↔
      e.state = .armed ∧ ∃ d ∈ e.desc, d.kind = .condition ∧ d.conforming e.rt.shadow = true := by
  simp [Entry.conformingFlag, Option.any_eq_true]

/-- A FETCHING entry of a sound state has its request in the list. -/
theorem exists_requestOf {s : State} {i : Nat} (h : s.fetchSound) (hi : i < entryCount)
    (hf : (s.entry i).state = .fetching) :
    ∃ r ∈ s.port.list, r.entry = i ∧ r.orphaned = false ∧ requestOf s.port.list i = some r := by
  obtain ⟨-, -, hone, -⟩ := h
  have hlen := hone i hi
  rw [if_pos hf] at hlen
  obtain ⟨r, hr⟩ := List.length_eq_one_iff.mp hlen
  have hmem : r ∈ requestsOf s.port.list i := by simp [hr]
  obtain ⟨hin, hp⟩ := List.mem_filter.mp hmem
  simp only [Bool.and_eq_true, decide_eq_true_eq, Bool.not_eq_true'] at hp
  refine ⟨r, hin, hp.1, hp.2, ?_⟩
  rw [requestOf, ← List.head?_filter]
  exact congrArg List.head? hr

theorem State.requestStatus_of_fetching {s : State} {i : Nat} {r : FetchRequest} (hf : (s.entry i).state = .fetching)
    (hr : requestOf s.port.list i = some r) : s.requestStatus i = if r.status = .issued then 2 else 1 := by
  rw [State.requestStatus, if_pos (show (entryAt s.entries i).state = .fetching from hf), hr]

theorem State.requestStatus_of_not_fetching {s : State} {i : Nat} (hf : (s.entry i).state ≠ .fetching) :
    s.requestStatus i = 0 :=
  if_neg hf

theorem byteOf_toNat (b : Byte) : byteOf b.toNat = b := by simp [byteOf]

theorem EventQueue.oldest_eq (q : EventQueue) : q.oldest = (q.records.head?.map Record.sequence).getD q.next := by
  unfold EventQueue.oldest
  cases q.records <;> rfl

/-- The status block, in the words of Table 9-8. -/
theorem State.statusBlock_eq (s : State) :
    s.statusBlock =
      [if s.mode = .monitoring then 0 else 1, byteOf s.queue.records.length] ++
        bytes2 ((s.queue.records.head?.map Record.sequence).getD s.queue.next) ++ bytes2 s.queue.next ++
        [setByte fun c => (s.alerts.get c).missed, setByte fun c => (s.alerts.get c).line,
          byteOf s.port.list.length, if s.time.source = .irc then 0 else 1] ++
        bytes2 s.time.divisor ++ bytes4 s.time.tickCounter ++ [if s.time.monitor = .lost then 0 else 1] := by
  have hmode : s.mode.code = if s.mode = .monitoring then 0 else 1 := by cases s.mode <;> rfl
  have hsource : s.time.source.code = if s.time.source = .irc then 0 else 1 := by cases s.time.source <;> rfl
  have hmonitor : s.time.monitor.code = if s.time.monitor = .lost then 0 else 1 := by cases s.time.monitor <;> rfl
  rw [State.statusBlock, EventQueue.oldest_eq, hmode, hsource, hmonitor]
  rfl

/-- The entry block, in the words of Table 9-9. -/
theorem State.entryBlock_eq (s : State) (b : Byte) :
    s.entryBlock b.toNat =
      let e := s.entry b.toNat
      [b, e.state.code, s.entryFlags b.toNat] ++
        (match e.desc with | none => List.replicate 24 0 | some d => d.bytes) ++
        bytes4 (if e.shadowBearing = true ∧ e.state = .armed then e.rt.shadow else 0) ++
        bytes2 (BitVec.ofNat 16 e.rt.remaining) ++ bytes2 (BitVec.ofNat 16 e.rt.allowance) ++
        bytes2 (BitVec.ofNat 16 e.rt.windowLeft) ++ bytes2 (BitVec.ofNat 16 e.rt.excess) ++ bytes4 e.rt.lapseTick := by
  have hdesc : ∀ o : Option Descriptor,
      (o.map Descriptor.bytes).getD (List.replicate 24 0) =
        match o with | none => List.replicate 24 0 | some d => d.bytes := by
    intro o
    cases o <;> rfl
  simp only [State.entryBlock, byteOf_toNat, hdesc, Entry.shadowValid_iff]
  rfl

/-- Settles O46: the two blocks, and the flags of the entry block bit by bit. -/
theorem reportsAnswerTheirBlocks : Obligations.ReportsAnswerTheirBlocks := by
  refine ⟨fun s ha => ?_, fun s b ha hb => ?_⟩
  · rw [exec_request_eq (c := .readStatus []) (u := s.quiet) rfl ha rfl rfl, State.statusBlock_eq]
    rfl
  · intro e
    have hperform : performance (.queryEntry [b]) s.quiet = (s.quiet, .ok (s.quiet.entryBlock b.toNat)) := if_pos hb
    obtain ⟨hvalid, hconforming, htripped, hstatus, hrest⟩ :=
      flags_bits (s.requestStatus b.toNat) e.rt.windowTripped e.conformingFlag e.shadowValid
    refine ⟨s.entryFlags b.toNat, ?_, ?_, ?_, htripped, fun hf => ?_, hrest, fun hs hf => ?_⟩
    · rw [exec_request_eq (c := .queryEntry [b]) rfl ha rfl hperform, State.entryBlock_eq]
      rfl
    · rw [← e.shadowValid_iff]
      exact Bool.eq_iff_iff.mp hvalid
    · rw [← e.conformingFlag_iff]
      exact Bool.eq_iff_iff.mp hconforming
    · exact hstatus.trans (State.requestStatus_of_not_fetching hf)
    · obtain ⟨-, -, hfetch, -⟩ := hs
      obtain ⟨r, hr, hentry, hnot, hrequest⟩ := exists_requestOf hfetch hb hf
      exact ⟨r, hr, hentry, hnot, hstatus.trans (State.requestStatus_of_fetching hf hrequest)⟩

/-! ## READ EVENTS (R131, R174) -/

theorem presence_bits : ∀ entry address lanes old new disposition detail : Bool,
    let presence : Byte :=
      (0#1) ++ BitVec.ofBool detail ++ BitVec.ofBool disposition ++ BitVec.ofBool new ++ BitVec.ofBool old ++
        BitVec.ofBool lanes ++ BitVec.ofBool address ++ BitVec.ofBool entry
    presence.getLsbD 0 = entry ∧ presence.getLsbD 1 = address ∧ presence.getLsbD 2 = lanes ∧ presence.getLsbD 3 = old ∧
      presence.getLsbD 4 = new ∧ presence.getLsbD 5 = disposition ∧ presence.getLsbD 6 = detail ∧
      presence.getLsbD 7 = false := by
  decide +kernel

theorem lane_bits : ∀ (disposition : BitVec 2) (lanes : BitVec 4),
    let v : Byte := (0#2) ++ disposition ++ lanes
    v.extractLsb' 0 4 = lanes ∧ v.extractLsb' 6 2 = 0 ∧ v.extractLsb' 4 2 = disposition := by
  decide +kernel

theorem EventKind.code_eq (k : EventKind) :
    k.code =
      match k with
      | .conditionBroken => 0x01 | .countExhausted => 0x02 | .rateExceeded => 0x03 | .deadlineLapsed => 0x04
      | .deadlineResumed => 0x05 | .readbackDiverged => 0x06 | .fetchFailed => 0x07 | .hostReset => 0x08
      | .memoryError => 0x09 | .memoryTimeout => 0x0A | .timebaseFallback => 0x0B := by
  cases k <;> rfl

theorem Record.bytes_length (r : Record) : r.bytes.length = 24 := rfl

theorem State.eventBlock_length (s : State) (k : Nat) :
    (s.eventBlock k).length = 1 + 24 * min k s.queue.records.length := by
  have hflat : ∀ rs : List Record, (rs.map Record.bytes).flatten.length = 24 * rs.length := by
    intro rs
    induction rs with
    | nil => rfl
    | cons r rs ih => rw [List.map_cons, List.flatten_cons, List.length_append, ih, r.bytes_length, List.length_cons]; omega
  rw [State.eventBlock, List.length_cons, hflat, List.length_take]
  omega

theorem State.read_of_count {s : State} {k : Byte} (h1 : 1 ≤ k.toNat) (h8 : k.toNat ≤ 8) :
    s.read k = (s, .ok (s.eventBlock k.toNat)) :=
  if_pos ⟨h1, h8⟩

theorem State.read_of_other {s : State} {k : Byte} (h : k.toNat < 1 ∨ 8 < k.toNat) : s.read k = (s, .badParam 1) :=
  if_neg (by omega)

/-- Settles O47: a record byte by byte, and the block of records. -/
theorem readEventsAnswersTheHead : Obligations.ReadEventsAnswersTheHead := by
  refine ⟨fun r => ?_, fun s k ha => ⟨fun h1 h8 => ?_, fun h => ?_⟩⟩
  · intro ev part
    obtain ⟨hlanes, hrest, hdisposition⟩ := lane_bits ((ev.disposition.map Disposition.code).getD 0) (ev.lanes.getD 0)
    refine ⟨ev.presence, ev.laneByte, ?_, presence_bits _ _ _ _ _ _ _, hlanes, hrest, hdisposition.trans ?_⟩
    · rw [Record.bytes, EventKind.code_eq]
      rfl
    · cases ev.disposition with
      | none => rfl
      | some d => cases d <;> rfl
  · exact ⟨_, exec_request_eq (c := .readEvents [k]) rfl ha rfl (State.read_of_count h1 h8), rfl,
      State.eventBlock_length s.quiet _⟩
  · exact exec_request_eq (c := .readEvents [k]) rfl ha rfl (State.read_of_other h)

/-! ## The bytes of a descriptor (R4, Table 9-5) -/

theorem kindOfByte_code (k : Kind) : kindOfByte k.code = some k := by cases k <;> rfl

theorem senseOfByte_code (s : Sense) : senseOfByte s.code = some s := by cases s <;> rfl

theorem actionOfByte_code (a : Action) : actionOfByte a.code = some a := by cases a <;> rfl

theorem countModeOfNibble_code (m : CountMode) : countModeOfNibble m.code = some m := by cases m <;> rfl

theorem flagOfNibble_flag (b : Bool) : flagOfNibble (flagNibble b) = some b := by cases b <;> rfl

theorem flagOfByte_flag (b : Bool) : flagOfByte (flagByte b) = some b := by cases b <;> rfl

theorem high_nibble_append (a b : BitVec 4) : BitVec.extractLsb' 4 4 (a ++ b) = a := by
  revert a b
  decide +kernel

theorem low_nibble_append (a b : BitVec 4) : BitVec.extractLsb' 0 4 (a ++ b) = b := by
  revert a b
  decide +kernel

theorem extract_byte_toNat {w : Nat} (v : BitVec w) (k : Nat) : (v.extractLsb' k 8).toNat = v.toNat / 2 ^ k % 256 := by
  rw [BitVec.extractLsb'_toNat, Nat.shiftRight_eq_div_pow]

theorem join2_bytes2 (v : BitVec 16) : join2 (v.extractLsb' 8 8) (v.extractLsb' 0 8) = v := by
  apply BitVec.eq_of_toNat_eq
  simp only [join2_toNat, extract_byte_toNat]
  omega

theorem join3_bytes3 (v : Addr) : join3 (v.extractLsb' 16 8) (v.extractLsb' 8 8) (v.extractLsb' 0 8) = v := by
  apply BitVec.eq_of_toNat_eq
  simp only [join3_toNat, extract_byte_toNat]
  omega

theorem join4_bytes4 (v : Word) :
    join4 (v.extractLsb' 24 8) (v.extractLsb' 16 8) (v.extractLsb' 8 8) (v.extractLsb' 0 8) = v := by
  apply BitVec.eq_of_toNat_eq
  simp only [join4_toNat, extract_byte_toNat]
  omega

theorem checkField_of_passes {n : Nat} {p : Bool} (h : p = true) : checkField n p = .ok () := if_pos h

theorem readField_of_some {α : Type} {n : Nat} {code : Option α} {v : α} (h : code = some v) : readField n code = .ok v := by
  rw [h, readField]

theorem except_ok_bind {α β : Type} (v : α) (f : α → Except Nat β) : (Except.ok v >>= f) = f v := rfl

/-- R3, R4: each field of a valid descriptor is read back and passes its check. -/
theorem checkDescriptor_bytes {d : Descriptor} (h : d.valid = true) : checkDescriptor d.bytes = .ok d := by
  obtain ⟨kind, countMode, changeOnly, sense, action, cls, base, limit, mask, reference, reload, window, readBack⟩ := d
  simp only [Descriptor.valid, Descriptor.shadowBearing_eq, Descriptor.isRate, Bool.and_eq_true] at h
  obtain ⟨⟨⟨⟨⟨⟨⟨⟨⟨hmode, hchange⟩, hsense⟩, haction⟩, hlimit⟩, hmask⟩, hreference⟩, hreload⟩, hwindow⟩, hread⟩ := h
  simp only [checkDescriptor, Descriptor.bytes, bytes2, bytes3, bytes4, List.cons_append, List.nil_append,
    List.getD_cons_zero, List.getD_cons_succ, high_nibble_append, low_nibble_append, join2_bytes2, join3_bytes3, join4_bytes4,
    readField_of_some (kindOfByte_code kind), readField_of_some (countModeOfNibble_code countMode),
    readField_of_some (flagOfNibble_flag changeOnly), readField_of_some (senseOfByte_code sense),
    readField_of_some (actionOfByte_code action), readField_of_some (classOfByte_classByte cls),
    readField_of_some (flagOfByte_flag readBack), checkField_of_passes hmode, checkField_of_passes hchange,
    checkField_of_passes hsense, checkField_of_passes haction, checkField_of_passes (Bool.and_eq_true_iff.mpr hlimit),
    checkField_of_passes hmask, checkField_of_passes hreference, checkField_of_passes hreload, checkField_of_passes hwindow,
    checkField_of_passes hread, except_ok_bind]
  rfl

/-- Settles O49: a valid descriptor by its fields in turn, bytes by the walk that read them. -/
theorem descriptorBytesRoundTrip : Obligations.DescriptorBytesRoundTrip := by
  refine ⟨fun d h => ⟨rfl, checkDescriptor_bytes h⟩, fun bytes d hlen h => ?_⟩
  have hread := (readFrom_of_ok h).2
  exact ⟨hread.valid, hread.bytes_eq hlen⟩

/-! ## The response (R161) -/

theorem exec_responseByteSent {s : State} {l : Link} {b : Byte} (h : s.link.send = some (l, b)) :
    exec .responseByteSent s = .next (s.quiet.byteDone l b) := by
  show execResponseByteSent s = _
  simp [execResponseByteSent, h]

/-- A byte sent after the check is the one that the link is sending. -/
theorem Link.exists_send {l : Link} (h : l.phase = .turnaround ∨ l.phase = .response ∨ l.phase = .trailing) :
    ∃ l1, l.send = some (l1, l.sending) ∧ (l.phase = .turnaround → l1.phase = .response ∧ l.sending = 0) ∧
      (l.phase = .trailing → l1.phase = .trailing ∧ l.sending = 0) ∧ l1.resetPending = l.resetPending := by
  unfold Link.send
  rcases h with h | h | h <;> rw [h]
  · exact ⟨_, rfl, fun _ => ⟨rfl, by rw [Link.sending, h]⟩, nofun, rfl⟩
  · dsimp only
    split <;> exact ⟨_, rfl, nofun, nofun, rfl⟩
  · exact ⟨_, rfl, nofun, fun _ => ⟨rfl, by rw [Link.sending, h]⟩, rfl⟩

/-- R155: outside IDLE a falling edge of SCK puts a bit of the byte being sent on SDO. -/
theorem State.sckFalls_of_selected {s : State} (h : s.link.phase ≠ .idle) :
    s.sckFalls = { s with pins := { s.pins with
      sckHigh := false, sdo := some (s.link.sending.getLsbD (7 - s.link.bits.length)) } } := by
  rw [State.sckFalls, if_neg h]

theorem State.sckFalls_of_idle {s : State} (h : s.link.phase = .idle) :
    s.sckFalls = { s with pins := { s.pins with sckHigh := false } } := by
  rw [State.sckFalls, if_pos h]

/-- The link in RESPONSE, before the k-th byte of a frame answered to a payload of p bytes. -/
structure Link.Sends (l : Link) (p k : Nat) (frame : List Byte) : Prop where
  phase : l.phase = .response
  position : l.position = p + 4 + k
  length : l.length.toNat = p
  payload : p ≤ 40
  response : l.response = frame
  frame : frame.length ≤ 196

namespace Link.Sends
variable {l : Link} {p k : Nat} {frame : List Byte}

theorem sentCount (h : l.Sends p k frame) : l.sentCount = k := by
  have hpayload := h.payload
  have hat : l.checkedAt = p + 3 := by rw [Link.checkedAt, maxPayload, h.length, if_neg (by omega)]
  rw [Link.sentCount, hat, h.position]
  omega

theorem sending (h : l.Sends p k frame) : l.sending = frame.getD k 0 := by
  rw [Link.sending, h.phase]
  show l.response.getD l.sentCount 0 = _
  rw [h.response, h.sentCount]

/-- A byte of the frame that is not the last. -/
theorem send_next (h : l.Sends p k frame) (hk : k + 1 < frame.length) :
    ∃ l1, l.send = some (l1, frame.getD k 0) ∧ l1.Sends p (k + 1) frame := by
  have hframe := h.frame
  have hpayload := h.payload
  refine ⟨{ l with position := nextPosition l.position, bits := [] }, ?_, h.phase, ?_, h.length, h.payload, h.response,
    h.frame⟩
  · rw [Link.send, h.phase, ← h.sending]
    show (if l.sentCount + 1 < l.response.length then _ else _) = _
    rw [h.sentCount, h.response, if_pos hk]
  · show min (l.position + 1) 240 = _
    rw [h.position]
    omega

/-- The last byte of the frame. -/
theorem send_last (h : l.Sends p k frame) (hk : k + 1 = frame.length) :
    ∃ l1, l.send = some (l1, frame.getD k 0) ∧ l1.phase = .trailing ∧ l1.response = [] := by
  refine ⟨{ l with position := nextPosition l.position, bits := [], phase := .trailing, response := [] }, ?_, rfl, rfl⟩
  rw [Link.send, h.phase, ← h.sending]
  show (if l.sentCount + 1 < l.response.length then _ else _) = _
  rw [h.sentCount, h.response, if_neg (by omega)]

/-- All that is left of the frame is sent, and the link is then in TRAILING. -/
theorem sendMany (h : l.Sends p k frame) {n : Nat} (hn : frame.length = k + (n + 1)) :
    (Link.sendMany (n + 1) l).1 = frame.drop k ∧ (Link.sendMany (n + 1) l).2.phase = .trailing ∧
      (Link.sendMany (n + 1) l).2.response = [] := by
  have hdrop : frame.drop k = frame.getD k 0 :: frame.drop (k + 1) := by
    rw [List.drop_eq_getElem_cons (by omega), List.getD_eq_getElem _ _ (by omega)]
  induction n generalizing l k with
  | zero =>
    obtain ⟨l1, hsend, hphase, hresponse⟩ := h.send_last (by omega)
    rw [Link.sendMany, hsend, hdrop, List.drop_eq_nil_of_le (by omega)]
    exact ⟨rfl, hphase, hresponse⟩
  | succ n ih =>
    obtain ⟨l1, hsend, h1⟩ := h.send_next (by omega)
    have hdrop1 : frame.drop (k + 1) = frame.getD (k + 1) 0 :: frame.drop (k + 1 + 1) := by
      rw [List.drop_eq_getElem_cons (by omega), List.getD_eq_getElem _ _ (by omega)]
    obtain ⟨hbytes, hphase, hresponse⟩ := ih h1 (by omega) hdrop1
    rw [Link.sendMany, hsend, hdrop]
    exact ⟨congrArg _ hbytes, hphase, hresponse⟩

end Link.Sends

/-- After a check the first byte is 00h, and the frame follows. -/
theorem Link.checked_send {l : Link} {code : Byte} {payload : List Byte} {r : Reply} (hp : payload.length ≤ 40)
    (hr : r.payload.length ≤ 193) :
    ∃ l1, (l.checked code payload r).send = some (l1, 0) ∧ l1.Sends payload.length 0 r.frame := by
  refine ⟨{ l.checked code payload r with phase := .response, position := nextPosition (payload.length + 3), bits := [] }, rfl,
    rfl, ?_, ?_, hp, rfl, ?_⟩
  · show min (payload.length + 3 + 1) 240 = _
    omega
  · show (byteOf payload.length).toNat = _
    rw [byteOf, BitVec.toNat_ofNat]
    omega
  · simp only [Reply.frame, List.length_append, List.length_cons, List.length_nil]
    omega

/-- Settles O41: a byte after the check by its phase, the response by the frame that is left of it. -/
theorem responseIsSentWhole : Obligations.ResponseIsSentWhole := by
  refine ⟨fun s h => ?_, fun s h => ?_, fun s => State.sckFalls_of_idle, fun l code payload r hp hr => ?_⟩
  · obtain ⟨l1, hsend, hturnaround, htrailing, hpending⟩ := Link.exists_send h
    refine ⟨_, _, exec_responseByteSent hsend, rfl, hsend, hturnaround, htrailing, hpending, fun k hk _ => ?_⟩
    rw [State.sckFalls_of_selected (by rcases h with h | h | h <;> simp [h]), hk]
  · rw [State.sckFalls_of_selected (by simp [h])]
    simp [Link.sending, h]
  · intro sent
    obtain ⟨l1, hsend, hsends⟩ := Link.checked_send (l := l) (code := code) hp hr
    obtain ⟨hbytes, hphase, hresponse⟩ := hsends.sendMany (n := r.payload.length + 2) (by simp [Reply.frame])
    have hlen : r.frame.length = r.payload.length + 2 + 1 := by simp [Reply.frame]
    have hsent : sent = (0 :: (Link.sendMany (r.payload.length + 2 + 1) l1).1, (Link.sendMany (r.payload.length + 2 + 1) l1).2) := by
      show Link.sendMany _ _ = _
      rw [hlen, Link.sendMany, hsend]
    rw [hsent]
    exact ⟨congrArg _ hbytes, hphase, hresponse⟩

end Sys2Proof.Machine
end

section
/-! The state after reset (R2, R58, R115, R137, R152), the settings (R122, R151, R179) and what the host cannot reach. -/

namespace Sys2Proof.Machine

/-! ## The reset state -/

theorem mem_resetEntries {e : Entry} (h : e ∈ resetEntries) : e = Entry.empty := List.eq_of_mem_replicate h

@[simp] theorem entryAt_resetEntries (i : Nat) : entryAt resetEntries i = Entry.empty := by
  rcases entryAt_mem_or_empty resetEntries i with h | h
  · exact mem_resetEntries h
  · exact h

theorem resetEntries_length : resetEntries.length = entryCount := List.length_replicate

/-- No entry of the reset table passes a test that the EMPTY one fails. -/
theorem indexesOf_resetEntries {p : Entry → Bool} (h : p Entry.empty = false) : indexesOf p resetEntries = [] :=
  indexesOf_eq_nil fun _ he => by rw [mem_resetEntries he, h]

theorem State.trafficSound_reset : State.reset.trafficSound := by
  refine ⟨⟨resetEntries_length, fun e he => ?_⟩, nofun, ⟨Nat.zero_le _, nofun, fun i _ => ?_, nofun, nofun, nofun, rfl⟩,
    ⟨nofun, nofun, nofun, nofun, nofun⟩, ⟨fun _ => rfl, nofun⟩, fun _ => ⟨rfl, rfl⟩, fun _ _ e he => ?_, nofun⟩
  · rw [mem_resetEntries he]
    rfl
  · have hentry : State.reset.entry i = Entry.empty := entryAt_resetEntries i
    rw [hentry]
    rfl
  · rw [mem_resetEntries he]
    nofun

theorem State.linkSound_reset : State.reset.linkSound :=
  ⟨nofun, fun _ => rfl, by simp [State.reset, Link.idle], nofun, nofun, Nat.zero_le _, by simp [State.reset, Link.idle, Pins.atPowerUp],
    Nat.zero_le _, fun _ => rfl⟩

/-- Settles O4: each predicate at the reset values. -/
theorem resetStateIsSound : Obligations.ResetStateIsSound := by
  obtain ⟨hqueue, halerts⟩ := (State.eventsSound_iff State.reset).mp EventsSound.reset
  exact ⟨State.trafficSound_reset, hqueue, halerts,
    ⟨nofun, by decide, by decide, Nat.zero_le _, by decide, nofun⟩, State.linkSound_reset, nofun, rfl, rfl⟩

/-! ## CLEAR MISSED (R151) -/

theorem high_nibble_eq_zero {set : Byte} : set.extractLsb' 4 4 = 0 ↔ set.toNat < 16 := by
  rw [← BitVec.toNat_inj, high_nibble_toNat]
  show _ = 0 ↔ _
  omega

theorem State.clearMarks_of_high {s : State} {set : Byte} (h : 16 ≤ set.toNat) : s.clearMarks set = (s, .badParam 1) :=
  if_neg (by rw [high_nibble_eq_zero]; omega)

theorem State.clearMarks_of_low {s : State} {set : Byte} (h : set.toNat < 16) :
    s.clearMarks set =
      let s1 := { s with alerts := s.alerts.clearMissed (set.extractLsb' 0 4) }
      (s1, .ok [setByte s1.alerts.marks, setByte s1.alerts.lines]) :=
  if_pos (high_nibble_eq_zero.mpr h)

/-- R151: a LEVEL line shows whether records are held once the mark is cleared; a STROBE line shows its pulse as before. -/
theorem ClassState.cleared_of_line {k : ClassState} (h : k.line = k.lineValue) :
    k.cleared =
      { k with missed := false, line := if k.mode = .level then k.maskOpen && decide (0 < k.count) else k.line } := by
  obtain ⟨maskOpen, mode⟩ := k
  cases mode
  · simp [ClassState.cleared, ClassState.drive, ClassState.lineValue, ClassState.pending]
  · simpa [ClassState.cleared, ClassState.drive, ClassState.lineValue] using h.symm

theorem getLsbD_low_nibble (set : Byte) (c : ClassNo) : (set.extractLsb' 0 4).getLsbD c.val = set.getLsbD c.val := by
  simp

/-! ## SET PART CLASSES (R122) -/

section Assign
variable {s : State} {f1 f2 f3 f4 : Byte} {a b c d : ClassNo}

theorem State.assignClasses_of_first (h1 : classOfByte f1 = none) :
    s.assignClasses [f1, f2, f3, f4] = (s, .badParam 1) := by
  simp [State.assignClasses, h1]

theorem State.assignClasses_of_second (h1 : classOfByte f1 = some a) (h2 : classOfByte f2 = none) :
    s.assignClasses [f1, f2, f3, f4] = (s, .badParam 2) := by
  simp [State.assignClasses, h1, h2]

theorem State.assignClasses_of_third (h1 : classOfByte f1 = some a) (h2 : classOfByte f2 = some b)
    (h3 : classOfByte f3 = none) : s.assignClasses [f1, f2, f3, f4] = (s, .badParam 3) := by
  simp [State.assignClasses, h1, h2, h3]

theorem State.assignClasses_of_fourth (h1 : classOfByte f1 = some a) (h2 : classOfByte f2 = some b)
    (h3 : classOfByte f3 = some c) (h4 : classOfByte f4 = none) :
    s.assignClasses [f1, f2, f3, f4] = (s, .badParam 4) := by
  simp [State.assignClasses, h1, h2, h3, h4]

theorem State.assignClasses_of_allowed (h1 : classOfByte f1 = some a) (h2 : classOfByte f2 = some b)
    (h3 : classOfByte f3 = some c) (h4 : classOfByte f4 = some d) :
    s.assignClasses [f1, f2, f3, f4] =
      ({ s with queue := { s.queue with classes := ⟨a, b, c, d⟩ } },
        .ok [classByte a, classByte b, classByte c, classByte d]) := by
  simp [State.assignClasses, h1, h2, h3, h4, PartClasses.bytes]

end Assign

theorem Link.checked_resetPending (l : Link) (code : Byte) (p : List Byte) (r : Reply) :
    { l with resetPending := true }.checked code p r = { l.checked code p r with resetPending := true } := rfl

/-- Settles O59: CLEAR MISSED class by class, SET PART CLASSES by its fields in turn, RESET PART by its performance. -/
theorem settingsRequestsChangeTheirSettings : Obligations.SettingsRequestsChangeTheirSettings := by
  refine ⟨fun s set ha => ⟨fun h => ?_, fun h halerts => ?_⟩, fun s f1 f2 f3 f4 ha => ?_, fun s ha => ?_⟩
  · exact exec_request_eq (c := .clearMissed [set]) rfl ha rfl (State.clearMarks_of_high h)
  · refine ⟨_, exec_request_eq (c := .clearMissed [set]) rfl ha rfl (State.clearMarks_of_low h), rfl, fun c => ?_⟩
    simp only [State.respond_alerts, State.quiet_alerts, AlertUnit.clearMissed_get, getLsbD_low_nibble,
      List.getD_cons_zero]
    refine ⟨fun hc => by simp [hc], fun hc => ?_⟩
    rw [if_pos hc]
    exact ClassState.cleared_of_line (halerts c).1
  · intro refused
    refine ⟨fun h1 => ?_, fun h1 h2 => ?_, fun h1 h2 h3 => ?_, fun h1 h2 h3 h4 => ?_, fun a b c d h1 h2 h3 h4 => ?_⟩
    · exact exec_request_eq (c := .setPartClasses _) rfl ha rfl (State.assignClasses_of_first (classOfByte_eq_none h1))
    · obtain ⟨a, h1⟩ := exists_classOfByte h1
      exact exec_request_eq (c := .setPartClasses _) rfl ha rfl (State.assignClasses_of_second h1 (classOfByte_eq_none h2))
    · obtain ⟨a, h1⟩ := exists_classOfByte h1
      obtain ⟨b, h2⟩ := exists_classOfByte h2
      exact exec_request_eq (c := .setPartClasses _) rfl ha rfl (State.assignClasses_of_third h1 h2 (classOfByte_eq_none h3))
    · obtain ⟨a, h1⟩ := exists_classOfByte h1
      obtain ⟨b, h2⟩ := exists_classOfByte h2
      obtain ⟨c, h3⟩ := exists_classOfByte h3
      exact exec_request_eq (c := .setPartClasses _) rfl ha rfl
        (State.assignClasses_of_fourth h1 h2 h3 (classOfByte_eq_none h4))
    · rw [exec_request_eq (c := .setPartClasses _) rfl ha rfl (State.assignClasses_of_allowed (classOfByte_eq_some h1)
        (classOfByte_eq_some h2) (classOfByte_eq_some h3) (classOfByte_eq_some h4)), classByte_eq h1, classByte_eq h2,
        classByte_eq h3, classByte_eq h4]
      rfl
  · have hperform : performance (.resetPart []) s.quiet =
        ({ s.quiet with link := { s.link with resetPending := true } }, .ok []) := rfl
    rw [exec_request_eq rfl ha rfl hperform, ← Link.checked_resetPending]
    rfl

/-! ## The settings of the supervisor -/

/-- The settings of a class (R141). -/
structure ClassState.SameSettings (k l : ClassState) : Prop where
  maskOpen : l.maskOpen = k.maskOpen
  mode : l.mode = k.mode
  strobeLength : l.strobeLength = k.strobeLength

theorem ClassState.SameSettings.trans {k l m : ClassState} (h : k.SameSettings l) (h' : l.SameSettings m) :
    k.SameSettings m :=
  ⟨h'.maskOpen.trans h.maskOpen, h'.mode.trans h.mode, h'.strobeLength.trans h.strobeLength⟩

theorem ClassState.SameSettings.of_settings {k l m : ClassState} (h : l.SameSettings m) (h' : k.SameSettings l) :
    k.SameSettings m :=
  h'.trans h

theorem ClassState.startPulse_same (k : ClassState) : k.SameSettings k.startPulse :=
  ⟨k.startPulse_settings.1, k.startPulse_settings.2.1, k.startPulse_settings.2.2.1⟩

/-- A change of the alert unit is one of counts, marks and pulses. -/
theorem AlertUnit.change_same (a : AlertUnit) (ch : AlertChange) (c : ClassNo) :
    (a.get c).SameSettings ((a.change ch).get c) := by
  by_cases hc : ch.cls = c
  · subst hc
    cases ch with
    | appended c =>
      rw [show (AlertChange.appended c).cls = c from rfl, AlertUnit.change_appended]
      exact (ClassState.startPulse_same _).of_settings ⟨rfl, rfl, rfl⟩
    | removed c =>
      rw [show (AlertChange.removed c).cls = c from rfl, AlertUnit.change_removed]
      exact ⟨rfl, rfl, rfl⟩
    | marked c =>
      rw [show (AlertChange.marked c).cls = c from rfl, AlertUnit.change_marked]
      exact (ClassState.startPulse_same _).of_settings ⟨rfl, rfl, rfl⟩
  · rw [AlertUnit.change_get_of_ne _ hc]
    exact ⟨rfl, rfl, rfl⟩

theorem AlertUnit.take_same (a : AlertUnit) (chs : List AlertChange) (c : ClassNo) :
    (a.get c).SameSettings ((a.take chs).get c) := by
  rw [AlertUnit.take_get]
  refine ClassState.SameSettings.trans ?_ (l := (chs.foldl AlertUnit.change a).get c) ⟨rfl, rfl, rfl⟩
  induction chs generalizing a with
  | nil => exact ⟨rfl, rfl, rfl⟩
  | cons ch chs ih => exact (a.change_same ch c).trans (ih _)

theorem State.raise_same (s : State) (evs : List Event) (c : ClassNo) :
    (s.alerts.get c).SameSettings ((s.raise evs).alerts.get c) := by
  induction evs generalizing s with
  | nil => exact ⟨rfl, rfl, rfl⟩
  | cons ev evs ih => exact (AlertUnit.take_same s.alerts _ c).trans (ih (s.raiseOne ev))

/-- Events reach no setting. -/
theorem State.Raised.settings {s t : State} (h : s.Raised t) :
    t.queue.classes = s.queue.classes ∧ ∀ c, (s.alerts.get c).SameSettings (t.alerts.get c) := by
  obtain ⟨evs, hq, ha⟩ := h
  rw [hq, ha]
  exact ⟨s.raise_classes evs, s.raise_same evs⟩

/-! ## The descriptors -/

theorem State.endHost_descs (s : State) (wanted : Bool) (addr : Addr) (op : BeatOp) (r : AccessEnd) :
    descs (s.endHost wanted addr op r).entries = descs s.entries := by
  have hreturn (u : State) : descs (u.returnToFetch addr op).entries = descs u.entries := by
    cases op
    · rfl
    · exact State.beginFetches_descs _ _
  cases r <;> simp only [State.endHost, State.failHost]
  case completion data =>
    rw [State.deliver_frame, State.complete]
    simp only [State.raise_entries]
    exact mapFrom_descs (fun _ e => (e.completed_keeps s.mode addr op data).1) 0 s.entries
  all_goals rw [hreturn, State.raise_entries, State.deliver_frame]

theorem State.endFetch_descs (s : State) (r : AccessEnd) : descs (s.endFetch r).entries = descs s.entries := by
  unfold State.endFetch
  split
  · rfl
  · dsimp only
    split
    · rfl
    · cases r <;> simp only [State.armFetched, State.failFetch, State.raise_entries, State.setEntry_entries] <;>
        exact set_descs rfl

theorem State.endAccess_descs (s : State) (r : AccessEnd) : descs (s.endAccess r).entries = descs s.entries := by
  cases hb : s.port.bus with
  | none => rw [State.endAccess_of_free hb]
  | some a =>
    rw [State.endAccess_eq hb, State.settle_descs, State.afterAccess]
    cases a.owner
    · exact State.endHost_descs _ _ _ _ _
    · exact State.endFetch_descs _ _
    · rfl

theorem State.takeBeat_descs (s : State) (x : Transaction) (data : Word) (strobes : Lanes) :
    descs (s.takeBeat x data strobes).entries = descs s.entries := by
  unfold State.takeBeat
  cases x.course
  · exact State.settle_descs _
  all_goals rfl

/-! ## Host traffic -/

/-- All that the supervisor sets is the same in both states. -/
structure State.SameSettings (s t : State) : Prop where
  power : t.power = s.power
  pins : t.pins = s.pins
  mode : t.mode = s.mode
  time : t.time = s.time
  link : t.link = s.link
  raised : s.Raised t
  descs : descs t.entries = descs s.entries

theorem State.SameSettings.trans {s t u : State} (h : s.SameSettings t) (h' : t.SameSettings u) : s.SameSettings u :=
  ⟨h'.power.trans h.power, h'.pins.trans h.pins, h'.mode.trans h.mode, h'.time.trans h.time, h'.link.trans h.link,
    h.raised.trans h'.raised, h'.descs.trans h.descs⟩

theorem State.answered_same (s : State) : s.SameSettings s.answered := by
  rw [State.answered_frame]
  exact ⟨rfl, rfl, rfl, rfl, rfl, .of_eq rfl rfl, rfl⟩

theorem State.takeBeat_same (s : State) (x : Transaction) (data : Word) (strobes : Lanes) :
    s.SameSettings (s.takeBeat x data strobes) := by
  refine ⟨?_, ?_, ?_, ?_, ?_, s.takeBeat_raised x data strobes, s.takeBeat_descs x data strobes⟩ <;> rw [State.takeBeat_frame]

theorem State.endAccess_same (s : State) (r : AccessEnd) : s.SameSettings (s.endAccess r) := by
  refine ⟨?_, ?_, ?_, ?_, ?_, s.endAccess_raised r, s.endAccess_descs r⟩ <;> rw [State.endAccess_frame]

/-- The commands of host and memory bus. -/
def isTraffic : Instr → Bool
  | .transactionRequestTaken _ _ _ _ _ | .beatTaken _ _ | .memoryReady _ _ | .responseLimit => true
  | _ => false

theorem requestParts_of_isTraffic {c : Instr} (h : isTraffic c = true) : requestParts c = none := by
  cases c <;> cases h <;> rfl

theorem not_isTick_of_isTraffic {c : Instr} (h : isTraffic c = true) : isTick c = false := by
  cases c <;> cases h <;> rfl

/-- What a command of host and memory bus comes to reaches no setting. -/
theorem Effect.sameSettings {s t : State} {c : Instr} (hc : isTraffic c = true) (h : Effect s c t) : s.SameSettings t := by
  cases h
  case quiet => exact ⟨rfl, rfl, rfl, rfl, rfl, .of_eq rfl rfl, rfl⟩
  case answered => exact s.answered_same
  case beatTaken => exact s.answered_same.trans (State.takeBeat_same _ _ _ _)
  case accessEnded => exact s.answered_same.trans (State.endAccess_same _ _)
  case ticked htick => exact absurd htick (by simp [not_isTick_of_isTraffic hc])
  case wrongLength hparts => exact absurd hparts (by simp [requestParts_of_isTraffic hc])
  case performed hparts _ => exact absurd hparts (by simp [requestParts_of_isTraffic hc])
  all_goals cases hc

/-- Settles O60: what the commands come to, one by one. -/
theorem hostTrafficReachesNoSetting : Obligations.HostTrafficReachesNoSetting := by
  intro c s t hc ht
  have htraffic : isTraffic c = true := by
    rcases hc with ⟨_, _, _, _, _, rfl⟩ | ⟨_, _, rfl⟩ | ⟨_, _, rfl⟩ | rfl <;> rfl
  have h := (effect_of_exec ht).sameSettings htraffic
  obtain ⟨hclasses, halerts⟩ := h.raised.settings
  exact ⟨h.power, h.pins, h.mode, h.time, h.link, hclasses, h.descs,
    fun k => ⟨(halerts k).maskOpen, (halerts k).mode, (halerts k).strobeLength⟩⟩

end Sys2Proof.Machine
end

section
/-! The link from step to step (R155 to R162, R182): its phases and the frame in progress stay sound. -/

namespace Sys2Proof.Machine

/-- R157: the frame in progress of a link in REQUEST. -/
structure Link.FrameSound (l : Link) : Prop where
  received : l.received.length = l.position
  crc : l.crc = crcOf l.received
  payload : l.payload.length = l.position - 2
  length : 2 ≤ l.position → l.position ≤ l.length.toNat + 2 ∧ l.length.toNat ≤ maxPayload

theorem State.frameSound_iff (s : State) : s.frameSound ↔ (s.link.phase = .request → s.link.FrameSound) :=
  ⟨fun h hp => let ⟨h1, h2, h3, h4⟩ := h hp; ⟨h1, h2, h3, h4⟩,
    fun h hp => let ⟨h1, h2, h3, h4⟩ := h hp; ⟨h1, h2, h3, h4⟩⟩

/-- What the link's soundness speaks of, the same in both states but for the phase of the start-up. -/
structure State.SameLink (s t : State) : Prop where
  running : t.power = .running ↔ s.power = .running
  csn : t.pins.csnLow = s.pins.csnLow
  srstn : t.pins.srstnLow = s.pins.srstnLow
  sdo : t.pins.sdo = s.pins.sdo
  link : t.link = s.link

theorem State.SameLink.trans {s t u : State} (h : s.SameLink t) (h' : t.SameLink u) : s.SameLink u :=
  ⟨h'.running.trans h.running, h'.csn.trans h.csn, h'.srstn.trans h.srstn, h'.sdo.trans h.sdo, h'.link.trans h.link⟩

theorem State.SameLink.of_eq {s t : State} (hpower : t.power = s.power) (hpins : t.pins = s.pins) (hlink : t.link = s.link) :
    s.SameLink t :=
  ⟨by rw [hpower], by rw [hpins], by rw [hpins], by rw [hpins], hlink⟩

theorem State.linkSound_congr {s t : State} (h : s.SameLink t) (hs : s.linkSound) : t.linkSound := by
  simpa only [State.linkSound, Ne, h.running, h.csn, h.srstn, h.sdo, h.link] using hs

/-- The link is sound and so is its frame. -/
structure State.LinkOk (s : State) : Prop where
  link : s.linkSound
  frame : s.link.phase = .request → s.link.FrameSound

theorem State.SameLink.linkOk {s t : State} (h : s.SameLink t) (hs : s.LinkOk) : t.LinkOk :=
  ⟨State.linkSound_congr h hs.link, by rw [h.link]; exact hs.frame⟩

/-! ## A byte on the link -/

/-- The link after a byte, as it can follow the link before. -/
structure Link.Follows (l l' : Link) : Prop where
  selected : l'.phase ≠ .idle
  response : l'.response ≠ [] ↔ l'.phase = .turnaround ∨ l'.phase = .response
  reset : l'.resetPending = true → l'.phase ≠ .request
  trailing : l.phase = .trailing → l'.phase = .trailing
  position : l'.position ≤ 240
  bits : l'.bits = []

theorem State.linkSound_byteDone {s u : State} {l : Link} {b : Byte} (h : s.linkSound) (hs : s.link.phase ≠ .idle)
    (hl : s.link.Follows l) (hpower : u.power = s.power) (hpins : u.pins = s.pins) :
    (u.byteDone l b).linkSound := by
  obtain ⟨hrunning, hidle, -, -, hsrstn, -, hsdo, -, -⟩ := h
  have hpower' : s.power = .running := Classical.byContradiction fun hn => hs (hidle hn)
  refine ⟨fun _ => ?_, fun hn => absurd (hpower.trans hpower') hn, hl.response, fun hr => ⟨hl.selected, hl.reset hr⟩,
    fun hlow => ?_, hl.position, ?_, by rw [State.byteDone_link, hl.bits]; exact Nat.zero_le _, fun hi => absurd hi hl.selected⟩
  · have hcsn : (u.byteDone l b).pins.csnLow = s.pins.csnLow := by rw [← hpins]; rfl
    rw [hcsn, ← hrunning hpower']
    exact ⟨fun hi => absurd hi hl.selected, fun hi => absurd hi hs⟩
  · have hlow' : s.pins.srstnLow = true := by rw [← hpins]; exact hlow
    exact .inr (hl.trailing ((hsrstn hlow').resolve_left hs))
  · refine ⟨fun hn => ?_, fun hi => absurd hi hl.selected⟩
    have hn' : (if u.atLastRise then u.pins.sdo else some (b.getLsbD 0)) = none := hn
    split at hn'
    · rw [hpins] at hn'
      exact absurd (hsdo.mp hn') hs
    · cases hn'

theorem Reply.frame_ne_nil (r : Reply) : r.frame ≠ [] := by simp [Reply.frame]

/-- A checked frame leaves TURNAROUND. -/
theorem Link.follows_checked {l : Link} (hp : l.phase = .request) {code : Byte}
    {p : List Byte} (hlen : p.length ≤ maxPayload) (k : Link) (r : Reply) : l.Follows (k.checked code p r) := by
  refine ⟨nofun, ⟨fun _ => .inl rfl, fun _ => r.frame_ne_nil⟩, fun _ => nofun, by simp [hp], ?_, rfl⟩
  show p.length + 3 ≤ 240
  rw [maxPayload] at hlen
  omega

theorem Link.awaits_phase {l : Link} {code : Byte} {p : List Byte} (h : l.awaits code p = true) :
    l.phase = .request ∧ p.length ≤ maxPayload := by
  simp only [Link.awaits, Bool.and_eq_true, decide_eq_true_eq] at h
  exact h.1.1

/-- R159: whatever the check of a frame comes to, the link is sound after it. -/
theorem State.LinkOk.respond {s u : State} (h : s.LinkOk) {code : Byte} {p : List Byte}
    (ha : s.link.awaits code p = true) (r : Reply) (hpower : u.power = s.power) (hpins : u.pins = s.pins) :
    (u.respond code p r).LinkOk := by
  obtain ⟨hphase, hlen⟩ := Link.awaits_phase ha
  exact ⟨State.linkSound_byteDone h.link (by simp [hphase]) (Link.follows_checked hphase hlen _ r) hpower hpins, nofun⟩

/-! ## The bytes of REQUEST (R157) -/

section Receive
variable {l l1 : Link} {b : Byte}

theorem Link.received_of_zero (h : l.position = 0) : l.received = [] := by simp [Link.received, h]

theorem Link.received_of_one (h : l.position = 1) : l.received = [l.code] := by simp [Link.received, h]

theorem Link.received_of_two_le (h : 2 ≤ l.position) : l.received = l.code :: l.length :: l.payload := by
  unfold Link.received
  split
  · omega
  · omega
  · rfl

theorem Link.receive_of_zero (h : l.position = 0) :
    l.receive b = some { l with position := 1, code := b, crc := crcByte l.crc b, bits := [] } := by
  simp [Link.receive, h]

theorem Link.receive_of_one (h : l.position = 1) (hb : b.toNat ≤ maxPayload) :
    l.receive b = some { l with position := 2, length := b, crc := crcByte l.crc b, bits := [] } := by
  simp [Link.receive, h, hb]

theorem Link.receive_of_payload (h : 2 ≤ l.position) (hb : l.position < l.length.toNat + 2) :
    l.receive b = some { l with
      position := l.position + 1, payload := l.payload ++ [b], crc := crcByte l.crc b, bits := [] } := by
  unfold Link.receive
  dsimp only
  split
  · omega
  · omega
  · rw [if_pos hb]

/-- The three bytes that do not end the frame. -/
theorem Link.receive_cases (h : l.receive b = some l1) :
    l.position = 0 ∨ l.position = 1 ∧ b.toNat ≤ maxPayload ∨ 2 ≤ l.position ∧ l.position < l.length.toNat + 2 := by
  unfold Link.receive at h
  dsimp only at h
  split at h
  · next h0 => exact .inl h0
  · next h1 =>
    split at h
    · next hb => exact .inr (.inl ⟨h1, hb⟩)
    · cases h
  · next h0 h1 =>
    split at h
    · next hb => exact .inr (.inr ⟨(Nat.two_le_iff _).mpr ⟨h0, h1⟩, hb⟩)
    · cases h

/-- A byte more is a byte more in the running CRC. -/
theorem Link.FrameSound.receive (hf : l.FrameSound) (h : l.receive b = some l1) : l1.FrameSound := by
  rcases Link.receive_cases h with h0 | ⟨h1, hb⟩ | ⟨h2, hb⟩
  · rw [Link.receive_of_zero h0] at h
    cases h
    refine ⟨rfl, ?_, by simpa [h0] using hf.payload, by simp⟩
    rw [hf.crc, Link.received_of_zero h0]
    rfl
  · rw [Link.receive_of_one h1 hb] at h
    cases h
    have hpayload : l.payload = [] := List.eq_nil_of_length_eq_zero (by rw [hf.payload, h1])
    refine ⟨by simp [Link.received, hpayload], ?_, by simp [hpayload], fun _ => ⟨by simp, hb⟩⟩
    have hreceived : Link.received { l with position := 2, length := b, crc := crcByte l.crc b, bits := [] } = [l.code, b] := by
      simp [Link.received, hpayload]
    rw [hreceived, hf.crc, Link.received_of_one h1]
    rfl
  · rw [Link.receive_of_payload h2 hb] at h
    cases h
    obtain ⟨hlen, hmax⟩ := hf.length h2
    have hreceived : Link.received { l with
        position := l.position + 1, payload := l.payload ++ [b], crc := crcByte l.crc b, bits := [] } = l.received ++ [b] := by
      rw [Link.received_of_two_le h2, Link.received_of_two_le (by show 2 ≤ l.position + 1; omega)]
      rfl
    refine ⟨?_, ?_, ?_, fun _ => ⟨by show l.position + 1 ≤ l.length.toNat + 2; omega, hmax⟩⟩
    · rw [hreceived, List.length_append, hf.received]
      rfl
    · rw [hreceived, crcOf_append_singleton, ← hf.crc]
    · show (l.payload ++ [b]).length = l.position + 1 - 2
      rw [List.length_append, hf.payload, List.length_singleton]
      omega

theorem Link.follows_receive (hp : l.phase = .request) (hresponse : l.response = []) (hreset : l.resetPending = false)
    (hf : l.FrameSound) (h : l.receive b = some l1) : l.Follows l1 ∧ l1.phase = .request := by
  have hmax := hf.length
  rw [maxPayload] at hmax
  rcases Link.receive_cases h with h0 | ⟨h1, hb⟩ | ⟨h2, hb⟩
  · rw [Link.receive_of_zero h0] at h
    cases h
    exact ⟨⟨by simp [hp], by simp [hp, hresponse], by simp [hreset], by simp [hp], by simp, rfl⟩, hp⟩
  · rw [Link.receive_of_one h1 hb] at h
    cases h
    exact ⟨⟨by simp [hp], by simp [hp, hresponse], by simp [hreset], by simp [hp], by simp, rfl⟩, hp⟩
  · rw [Link.receive_of_payload h2 hb] at h
    cases h
    exact ⟨⟨by simp [hp], by simp [hp, hresponse], by simp [hreset], by simp [hp],
      by show l.position + 1 ≤ 240; have := hmax h2; omega, rfl⟩, hp⟩

theorem Link.follows_refuseFrame (hp : l.phase = .request) (hf : l.FrameSound) (h : l.refuseFrame b = some l1) :
    l.Follows l1 ∧ l1.phase = .turnaround := by
  have hframe : Reply.badFrame.frame ≠ [] := Reply.frame_ne_nil _
  have hmax := hf.length
  rw [maxPayload] at hmax
  unfold Link.refuseFrame at h
  dsimp only at h
  split at h
  · cases h
  · next h1 =>
    split at h <;> cases h
    exact ⟨⟨nofun, by simp [hframe], fun _ => nofun, by simp [hp], by show l.position + 1 ≤ 240; omega, rfl⟩, rfl⟩
  · next h0 h1 =>
    split at h <;> cases h
    exact ⟨⟨nofun, by simp [hframe], fun _ => nofun, by simp [hp],
      by show l.position + 1 ≤ 240; have := hmax ((Nat.two_le_iff _).mpr ⟨h0, h1⟩); omega, rfl⟩, rfl⟩

end Receive

/-- R161: a byte sent after the check. -/
theorem Link.follows_send {l l1 : Link} {b : Byte} (hresponse : l.response ≠ [] ↔ l.phase = .turnaround ∨ l.phase = .response)
    (h : l.send = some (l1, b)) : l.Follows l1 ∧ l1.phase ≠ .request := by
  have hposition : nextPosition l.position ≤ 240 := Nat.min_le_right _ _
  unfold Link.send at h
  dsimp only at h
  split at h
  · cases h
  · cases h
  · next hp =>
    cases h
    exact ⟨⟨nofun, by simpa [hp] using hresponse, fun _ => nofun, by simp [hp], hposition, rfl⟩, nofun⟩
  · next hp =>
    split at h <;> cases h
    · exact ⟨⟨by simp [hp], by simpa [hp] using hresponse, fun _ => by simp [hp], by simp [hp], hposition, rfl⟩, by simp [hp]⟩
    · exact ⟨⟨nofun, by simp, fun _ => nofun, fun _ => rfl, hposition, rfl⟩, nofun⟩
  · next hp =>
    cases h
    exact ⟨⟨by simp [hp], by simpa [hp] using hresponse, fun _ => by simp [hp], fun _ => hp, hposition, rfl⟩, by simp [hp]⟩

/-! ## The events of the part -/

/-- The link once initialisation has ended (R181). -/
theorem State.LinkOk.endInitialisation {s : State} : s.endInitialisation.LinkOk := by
  cases hc : s.pins.csnLow
  · refine ⟨⟨fun _ => ?_, fun hn => absurd rfl hn, ?_, ?_, ?_, ?_, ?_, ?_, ?_⟩, ?_⟩ <;>
      simp [State.endInitialisation, hc, Link.idle]
  · refine ⟨⟨fun _ => ?_, fun hn => absurd rfl hn, ?_, ?_, ?_, ?_, ?_, ?_, ?_⟩, ?_⟩ <;>
      simp [State.endInitialisation, hc, Link.idle]

/-- R182: a select period in progress goes on in TRAILING, its bytes counted as they were. -/
theorem State.LinkOk.takeSrstnFall {s : State} (h : s.LinkOk) : s.takeSrstnFall.LinkOk := by
  obtain ⟨⟨hrunning, hidle, hresponse, hreset, hsrstn, hposition, hsdo, hbits, hnone⟩, hframe⟩ := h
  cases hp : s.power with
  | powerUpReset =>
    rw [State.takeSrstnFall, hp]
    exact ⟨⟨hrunning, hidle, hresponse, hreset, hsrstn, hposition, hsdo, hbits, hnone⟩, hframe⟩
  | initialising n =>
    have hi := hidle (by simp [hp])
    rw [State.takeSrstnFall, hp]
    exact ⟨⟨fun hr => absurd hr (by simp), fun _ => hi, hresponse, hreset, fun _ => .inl hi, hposition, hsdo, hbits,
      hnone⟩, hframe⟩
  | running =>
    rw [State.takeSrstnFall_of_running hp, State.supervisorReset_frame]
    have hselected := hrunning hp
    cases hc : s.pins.csnLow
    · have hsdo' : s.pins.sdo = none := hsdo.mpr (hselected.mpr hc)
      refine ⟨⟨fun _ => ?_, fun hn => absurd hp hn, ?_, ?_, ?_, ?_, ?_, ?_, ?_⟩, ?_⟩ <;>
        simp [Link.afterSrstnFall, Pins.srstnFalls, Link.idle, hc, hsdo']
    · have hsdo' : s.pins.sdo ≠ none := fun hn => by simpa [hc] using hselected.mp (hsdo.mp hn)
      refine ⟨⟨fun _ => ?_, fun hn => absurd hp hn, ?_, ?_, ?_, ?_, ?_, ?_, ?_⟩, ?_⟩ <;>
        simp [Link.afterSrstnFall, Pins.srstnFalls, Link.idle, hc, hsdo', hposition, hbits]

theorem State.LinkOk.srstnRise {s : State} (h : s.LinkOk) : s.takeSrstnRise.LinkOk := by
  obtain ⟨⟨hrunning, hidle, hresponse, hreset, -, hposition, hsdo, hbits, hnone⟩, hframe⟩ := h
  exact ⟨⟨hrunning, hidle, hresponse, hreset, nofun, hposition, hsdo, hbits, hnone⟩, hframe⟩

/-- R162: the select period ends. -/
theorem State.LinkOk.deselected {s : State} : s.deselected.LinkOk := by
  refine ⟨⟨fun _ => ?_, fun _ => rfl, ?_, ?_, ?_, ?_, ?_, ?_, ?_⟩, ?_⟩ <;> simp [State.deselected, Link.idle]

/-- R155, R157: the select period begins. -/
theorem State.LinkOk.selected {s : State} (hp : s.power = .running) : State.LinkOk { s.quiet with
    pins := { s.pins with csnLow := true, sdo := some false }
    link := { Link.idle with phase := if s.pins.srstnLow then .trailing else .request } } := by
  cases hlow : s.pins.srstnLow
  · refine ⟨⟨fun _ => ?_, fun hn => absurd hp hn, ?_, ?_, ?_, ?_, ?_, ?_, ?_⟩, fun _ => ⟨rfl, rfl, rfl, ?_⟩⟩ <;>
      simp [hlow, Link.idle]
  · refine ⟨⟨fun _ => ?_, fun hn => absurd hp hn, ?_, ?_, ?_, ?_, ?_, ?_, ?_⟩, ?_⟩ <;> simp [hlow, Link.idle]

theorem Link.takesByte_phase {l : Link} {b : Byte} (h : l.takesByte b = true) : l.phase = .request := by
  simp only [Link.takesByte, Bool.and_eq_true, decide_eq_true_eq] at h
  exact h.1

/-- What a command comes to leaves the link sound. -/
theorem Effect.linkOk {s t : State} {c : Instr} (hs : s.LinkOk) (h : Effect s c t) : t.LinkOk := by
  have ha : s.SameLink s.answered := by rw [State.answered_frame]; exact .of_eq rfl rfl rfl
  have hanswered : s.answered.LinkOk := ha.linkOk hs
  obtain ⟨hrunning, hidle, hresponse, hreset, -⟩ := hs.link
  cases h
  case quiet => exact State.SameLink.linkOk (s := s) (.of_eq rfl rfl rfl) hs
  case answered => exact hanswered
  case powerUp =>
    refine ⟨⟨nofun, fun _ => rfl, ?_, nofun, nofun, Nat.zero_le _, ?_, Nat.zero_le _, fun _ => rfl⟩, nofun⟩ <;>
      simp [State.reset, Link.idle, Pins.atPowerUp]
  case powerUpResetEnd hp =>
    obtain ⟨⟨-, -, -, -, -, hposition, -, hbits, hnone⟩, hframe⟩ := hs
    have hi := hidle (by simp [hp])
    exact ⟨⟨nofun, fun _ => hi, hresponse, hreset, nofun, hposition, ⟨fun _ => hi, fun _ => rfl⟩, hbits, hnone⟩, hframe⟩
  case initialisationEnd => exact State.LinkOk.endInitialisation
  case srstnFall => exact hanswered.takeSrstnFall
  case srstnRise => exact hanswered.srstnRise
  case hostReset =>
    refine State.SameLink.linkOk (s := s) ?_ hs
    rw [State.takeHrstnFall_frame]
    unfold State.takeHrstnFall
    split <;> exact ⟨.rfl, rfl, rfl, rfl, rfl⟩
  case hrstnRise => exact State.SameLink.linkOk (s := s) ⟨.rfl, rfl, rfl, rfl, rfl⟩ hs
  case beatTaken =>
    refine State.SameLink.linkOk ?_ hanswered
    rw [State.takeBeat_frame]
    exact .of_eq rfl rfl rfl
  case accessEnded =>
    refine State.SameLink.linkOk ?_ hanswered
    rw [State.endAccess_frame]
    exact .of_eq rfl rfl rfl
  case ticked =>
    rw [State.tickOnce_frame]
    exact State.SameLink.linkOk (s := s) (.of_eq rfl rfl rfl) hs
  case gapExpired =>
    rw [State.gapExpires_frame]
    exact State.SameLink.linkOk (s := s) (.of_eq rfl rfl rfl) hs
  case refclkEdge =>
    rw [State.refclkEdge_frame]
    exact State.SameLink.linkOk (s := s) (.of_eq rfl rfl rfl) hs
  case csnFallEarly hcsn hp =>
    obtain ⟨⟨-, -, -, -, hsrstn, hposition, hsdo, hbits, hnone⟩, hframe⟩ := hs
    exact ⟨⟨fun hr => absurd hr hp, hidle, hresponse, hreset, hsrstn, hposition, hsdo, hbits, hnone⟩, hframe⟩
  case csnFall _ hp => exact State.LinkOk.selected hp
  case csnRise => exact State.LinkOk.deselected
  case csnRiseReset =>
    rw [State.supervisorReset_frame]
    exact State.SameLink.linkOk (s := s.deselected) (.of_eq rfl rfl rfl) State.LinkOk.deselected
  case byteReceived byte l ht hl =>
    have hp := Link.takesByte_phase ht
    have hnil : s.link.response = [] := Classical.byContradiction fun hn => by simpa [hp] using hresponse.mp hn
    have hpending : s.link.resetPending = false := by
      rw [← Bool.not_eq_true]
      exact fun hr => (hreset hr).2 hp
    obtain ⟨hfollows, -⟩ := Link.follows_receive hp hnil hpending (hs.frame hp) hl
    exact ⟨State.linkSound_byteDone hs.link (by simp [hp]) hfollows rfl rfl, fun _ => (hs.frame hp).receive hl⟩
  case byteSent l b hl =>
    obtain ⟨hfollows, hnot⟩ := Link.follows_send hresponse hl
    have hp : s.link.phase ≠ .idle := fun hi => by simp [Link.send, hi] at hl
    exact ⟨State.linkSound_byteDone hs.link hp hfollows rfl rfl, fun hr => absurd hr hnot⟩
  case badFrame byte l ht hl =>
    have hp := Link.takesByte_phase ht
    obtain ⟨hfollows, hturn⟩ := Link.follows_refuseFrame hp (hs.frame hp) hl
    exact ⟨State.linkSound_byteDone hs.link (by simp [hp]) hfollows rfl rfl, fun hr => by simp [hturn] at hr⟩
  case badCommand code p ha _ => exact hs.respond ha _ rfl rfl
  case wrongLength code n p ha _ => exact hs.respond ha _ rfl rfl
  case performed hu => exact hs.respond ‹_› _ (by rw [hu.frame]; rfl) (by rw [hu.frame]; rfl)

/-- The link and its frame are kept sound by all that a step is made of. -/
theorem linkOk_invariant : StepInvariant State.LinkOk where
  dequeue s rest h := State.SameLink.linkOk (s := s) (.of_eq rfl rfl rfl) h
  count s n h := State.SameLink.linkOk (s := s) (.of_eq rfl rfl rfl) h
  effect _ _ _ hs h := h.linkOk hs
  srstn s low h := by
    rcases s.sampleSrstn_cases low with hc | ⟨-, -, hc⟩ | ⟨-, -, hc⟩ <;> rw [hc]
    · exact State.SameLink.linkOk (s := s) ⟨.rfl, rfl, rfl, rfl, rfl⟩ h
    · exact h.takeSrstnFall
    · exact h.srstnRise
  hrstn s low h := by
    refine State.SameLink.linkOk (s := s) ?_ h
    rcases s.sampleHrstn_cases low with hc | ⟨-, -, hc⟩ | ⟨-, -, hc⟩ <;> rw [hc]
    · exact ⟨.rfl, rfl, rfl, rfl, rfl⟩
    · rw [State.takeHrstnFall_frame]
      unfold State.takeHrstnFall
      split <;> exact ⟨.rfl, rfl, rfl, rfl, rfl⟩
    · exact ⟨.rfl, rfl, rfl, rfl, rfl⟩
  period s h := by
    cases hp : s.power with
    | powerUpReset => simpa only [State.bclkPeriod, hp] using h
    | initialising n =>
      simp only [State.bclkPeriod, hp]
      split
      · exact State.SameLink.linkOk (s := s) ⟨by simp [hp], rfl, rfl, rfl, rfl⟩ h
      · exact State.LinkOk.endInitialisation
    | running =>
      refine State.SameLink.linkOk (s := s) ?_ h
      rcases State.bclkPeriod_cases hp with ⟨-, hs⟩ | ⟨a, -, ⟨-, hs⟩ | ⟨-, hs⟩⟩ <;> rw [hs]
      · exact .of_eq rfl rfl rfl
      · exact .of_eq rfl rfl rfl
      · rw [State.endAccess_frame]
        exact .of_eq rfl rfl rfl
  give s h := by
    rw [State.giveAnswer_frame]
    exact State.SameLink.linkOk (s := s) (.of_eq rfl rfl rfl) h
  irc s order h := by
    rw [State.ircPeriod_frame]
    exact State.SameLink.linkOk (s := s) (.of_eq rfl rfl rfl) h
  sckFalls s h := by
    by_cases hi : s.link.phase = .idle
    · rw [State.sckFalls_of_idle hi]
      exact State.SameLink.linkOk (s := s) ⟨.rfl, rfl, rfl, rfl, rfl⟩ h
    · obtain ⟨⟨hrunning, hidle, hresponse, hreset, hsrstn, hposition, -, hbits, hnone⟩, hframe⟩ := h
      rw [State.sckFalls_of_selected hi]
      exact ⟨⟨hrunning, hidle, hresponse, hreset, hsrstn, hposition, ⟨nofun, fun h => absurd h hi⟩, hbits, hnone⟩, hframe⟩
  sckIgnored s h := State.SameLink.linkOk (s := s) ⟨.rfl, rfl, rfl, rfl, rfl⟩ h
  sckSamples s sdi hphase hbits h := by
    obtain ⟨⟨hrunning, hidle, hresponse, hreset, hsrstn, hposition, hsdo, -, -⟩, hframe⟩ := h
    refine ⟨⟨hrunning, hidle, hresponse, hreset, hsrstn, hposition, hsdo, ?_, fun h => absurd h hphase⟩, fun hr => ?_⟩
    · show (s.link.bits ++ [sdi]).length ≤ 7
      rw [List.length_append, List.length_singleton]
      omega
    · obtain ⟨h1, h2, h3, h4⟩ := hframe hr
      exact ⟨h1, h2, h3, h4⟩

/-- Settles O8: the step keeps what all it is made of keeps. -/
theorem stepKeepsLinkSound : Obligations.StepKeepsLinkSound := by
  intro s t hlink hframe ht
  have h := linkOk_invariant.step ⟨hlink, s.frameSound_iff.mp hframe⟩ ht
  exact ⟨h.link, t.frameSound_iff.mpr h.frame⟩

end Sys2Proof.Machine
end

section
/-! The bits of a byte and the bytes of a frame (R155, R157). What a command does not depend on the bits of the byte in progress
but through the last rising edge, so eight edges come to the command that the byte is. -/

namespace Sys2Proof.Machine

/-! ## The bits of the byte in progress -/

/-- The state with other pins and other bits of the byte in progress. -/
def State.rebit (s : State) (p : Pins) (bits : List Bool) : State := s.withLink p { s.link with bits } s.out

section Rebit
variable (s : State) (p : Pins) (bits : List Bool)

theorem State.rebit_entry (i : Nat) : (s.rebit p bits).entry i = s.entry i := rfl
theorem State.rebit_mode : (s.rebit p bits).mode = s.mode := rfl
theorem State.rebit_time : (s.rebit p bits).time = s.time := rfl
theorem State.rebit_queue : (s.rebit p bits).queue = s.queue := rfl
theorem State.rebit_setEntry (i : Nat) (e : Entry) : (s.rebit p bits).setEntry i e = (s.setEntry i e).rebit p bits := rfl
theorem State.rebit_giveUpFetch (i : Nat) : (s.rebit p bits).giveUpFetch i = (s.giveUpFetch i).rebit p bits := rfl

theorem State.rebit_beginFetch (i : Nat) : (s.rebit p bits).beginFetch i = (s.beginFetch i).rebit p bits := by
  rw [State.rebit, State.withLink_beginFetch, State.rebit, State.beginFetch_frame]

theorem State.rebit_settle : (s.rebit p bits).settle = s.settle.rebit p bits := by
  rw [State.rebit, State.withLink_settle, State.rebit, State.settle_link, State.settle_out]

/-- A performance done before or after the change. -/
def Rebits (perform : State → State × Reply) : Prop :=
  ∀ (s : State) (p : Pins) (bits : List Bool), perform (s.rebit p bits) = ((perform s).1.rebit p bits, (perform s).2)

theorem rebits_load (bytes : List Byte) (i : Nat) : Rebits (State.load bytes i) := by
  intro s p bits
  by_cases h : (s.entry i).state = .empty ∨ (s.entry i).state = .loaded
  · rw [State.load, State.load, State.rebit_entry, if_pos h, if_pos h]
    cases checkDescriptor bytes <;> rfl
  · rw [State.load, State.load, State.rebit_entry, if_neg h, if_neg h]

theorem rebits_arm (i : Nat) : Rebits (State.arm i) := by
  intro s p bits
  simp only [State.arm, State.rebit_entry, State.rebit_mode, State.rebit_beginFetch, State.rebit_setEntry]
  split_ifs <;> simp only [State.rebit_settle] <;> rfl

theorem rebits_disarm (i : Nat) : Rebits (State.disarm i) := by
  intro s p bits
  simp only [State.disarm, State.rebit_entry, State.rebit_giveUpFetch, State.rebit_setEntry, State.rebit_settle]
  split_ifs <;> rfl

theorem rebits_clear (i : Nat) : Rebits (State.clear i) := by
  intro s p bits
  simp only [State.clear, State.rebit_entry, State.rebit_giveUpFetch, State.rebit_setEntry, State.rebit_settle]
  split_ifs <;> rfl

theorem rebits_resync (i : Nat) : Rebits (State.resync i) := by
  intro s p bits
  simp only [State.resync, State.rebit_entry, State.rebit_beginFetch, State.rebit_settle]
  split_ifs <;> rfl

theorem rebits_suspend : Rebits State.suspendPart := by
  intro s p bits
  by_cases h : s.mode = .monitoring
  · rw [State.suspendPart, State.suspendPart, State.rebit_mode, if_pos h, if_pos h]
    have hsettle := State.rebit_settle { s with
      mode := .suspended, entries := mapFrom (fun _ e => e.suspended) 0 s.entries
      port := { s.port with list := suspendedList s.port.list } } p bits
    have hreply := congrArg (fun u : State => Reply.ok u.modeBlock) hsettle
    exact Prod.ext hsettle hreply
  · rw [State.suspendPart, State.suspendPart, State.rebit_mode, if_neg h, if_neg h]

theorem rebits_resume : Rebits State.resumePart := by
  intro s p bits
  by_cases h : s.mode = .suspended
  · rw [State.resumePart, State.resumePart, State.rebit_mode, if_pos h, if_pos h]
    have hsettle := State.rebit_settle { s with mode := .monitoring } p bits
    have hreply := congrArg (fun u : State => Reply.ok u.modeBlock) hsettle
    exact Prod.ext hsettle hreply
  · rw [State.resumePart, State.resumePart, State.rebit_mode, if_neg h, if_neg h]

theorem rebits_read (k : Byte) : Rebits (State.read k) := by
  intro s p bits
  simp only [State.read]
  split_ifs <;> rfl

theorem rebits_ack (n : Seq) : Rebits (State.ack n) := by
  intro s p bits
  cases h : s.queue.ahead n
  · rw [State.ack_of_not_ahead h, State.ack_of_not_ahead (s := s.rebit p bits) h]
    rfl
  · rw [State.ack_of_ahead h, State.ack_of_ahead (s := s.rebit p bits) h]
    rfl

theorem rebits_configureClass (fields : List Byte) : Rebits (State.configureClass fields) := by
  intro s p bits
  unfold State.configureClass
  cases classOfByte (fields.getD 0 0) with
  | none => rfl
  | some c => cases flagOfByte (fields.getD 1 0) with
    | none => rfl
    | some maskOpen => cases flagOfByte (fields.getD 2 0) with
      | none => rfl
      | some strobe =>
        dsimp only
        split_ifs <;> rfl

theorem rebits_clearMarks (set : Byte) : Rebits (State.clearMarks set) := by
  intro s p bits
  simp only [State.clearMarks]
  split_ifs <;> rfl

theorem rebits_assignClasses (fields : List Byte) : Rebits (State.assignClasses fields) := by
  intro s p bits
  unfold State.assignClasses
  split <;> rfl

theorem rebits_selectTimebase (code : Byte) (divisor : BitVec 16) : Rebits (State.selectTimebase code divisor) := by
  intro s p bits
  cases hc : sourceOfByte code with
  | none =>
    rw [State.selectTimebase_of_no_source (s := s) hc, State.selectTimebase_of_no_source (s := s.rebit p bits) hc]
  | some source =>
    cases hd : divisorAllowed source divisor with
    | false => rw [State.selectTimebase_of_divisor (s := s) hc hd, State.selectTimebase_of_divisor (s := s.rebit p bits) hc hd]
    | true =>
      by_cases hm : source = .refclk ∧ s.time.monitor = .lost
      · obtain ⟨rfl, hm⟩ := hm
        rw [State.selectTimebase_of_lost hc hd hm, State.selectTimebase_of_lost (s := s.rebit p bits) hc hd hm]
      · have hrunning : source = .refclk → s.time.monitor = .running := fun hs => by
          cases hl : s.time.monitor with
          | running => rfl
          | lost => exact absurd ⟨hs, hl⟩ hm
        rw [State.selectTimebase_of_allowed hc hd hrunning,
          State.selectTimebase_of_allowed (s := s.rebit p bits) hc hd hrunning]
        rfl

theorem rebits_onEntry (payload : List Byte) {perform : Nat → State → State × Reply} (h : ∀ i, Rebits (perform i)) :
    Rebits (onEntry payload perform) := by
  intro s p bits
  simp only [onEntry]
  split_ifs
  · exact h _ s p bits
  · rfl

/-- No request asks for the bits of the byte in progress. -/
theorem rebits_performance (c : Instr) : Rebits (performance c) := by
  cases c
  case loadEntry p => exact rebits_onEntry p (rebits_load _)
  case armEntry p => exact rebits_onEntry p rebits_arm
  case disarmEntry p => exact rebits_onEntry p rebits_disarm
  case clearEntry p => exact rebits_onEntry p rebits_clear
  case resyncEntry p => exact rebits_onEntry p rebits_resync
  case queryEntry p => exact rebits_onEntry p fun _ _ _ _ => rfl
  case suspend => exact rebits_suspend
  case resume => exact rebits_resume
  case readEvents => exact rebits_read _
  case ackEvents => exact rebits_ack _
  case setClass => exact rebits_configureClass _
  case clearMissed => exact rebits_clearMarks _
  case setPartClasses => exact rebits_assignClasses _
  case setTimebase => exact rebits_selectTimebase _ _
  all_goals exact fun _ _ _ => rfl

end Rebit

/-! ## The last rising edge of a byte -/

/-- The pins before the last rising edge of a byte, with its last bit on SDO. -/
def Pins.atLastBit (p : Pins) (sent : Byte) : Pins := { p with sckHigh := false, sdo := some (sent.getLsbD 0) }

/-- The state with the last edge of a byte left, the byte being clocked in as `byte` and out as the link sends. -/
def State.atLastBit (s : State) (byte : Byte) : State := s.rebit (s.pins.atLastBit s.link.sending) ((bitsOf byte).take 7)

section LastBit
variable {s u : State} {byte b : Byte} {l : Link}

/-- R155: the last edge leaves what the whole byte leaves. -/
theorem State.byteDone_atLastBit (hbits : u.link.bits = []) :
    (u.rebit (u.pins.atLastBit b) ((bitsOf byte).take 7)).byteDone l b = u.byteDone l b := by
  have hlast : (u.rebit (u.pins.atLastBit b) ((bitsOf byte).take 7)).atLastRise = true := rfl
  have hfirst : u.atLastRise = false := by simp [State.atLastRise, hbits]
  simp only [State.byteDone, State.pinsAfter, hlast, hfirst]
  rfl

theorem bitsOf_take_isPrefixOf (byte : Byte) : ((bitsOf byte).take 7).isPrefixOf (bitsOf byte) = true :=
  List.isPrefixOf_iff_prefix.mpr (List.take_prefix _ _)

theorem Link.takesByte_request (hp : l.phase = .request) (hb : l.bits.isPrefixOf (bitsOf byte) = true) :
    l.takesByte byte = true :=
  Link.takesByte_of_begins hp hb

theorem exec_requestByteReceived {l1 : Link} (ht : s.link.takesByte byte = true) (hl : s.link.receive byte = some l1) :
    exec (.requestByteReceived byte) s = .next (s.quiet.byteDone l1 0) := by
  show execRequestByteReceived byte s = _
  simp [execRequestByteReceived, ht, hl]

/-- The frame whose bytes have all come but the CRC is the one awaited. -/
theorem Link.awaits_of_complete (hp : l.phase = .request) (hf : l.FrameSound) (h2 : 2 ≤ l.position)
    (hend : l.position = l.length.toNat + 2) (hbits : l.bits.isPrefixOf (bitsOf l.crc) = true) :
    l.awaits l.code l.payload = true := by
  obtain ⟨-, hmax⟩ := hf.length h2
  have hlen : l.payload.length = l.length.toNat := by rw [hf.payload, hend]; omega
  have hbody : frameBody l.code l.payload = l.received := by
    rw [Link.received_of_two_le h2, frameBody, hlen, byteOf_toNat]
  have hnext : (frameBody l.code l.payload).getD l.received.length (crcOf (frameBody l.code l.payload)) = l.crc := by
    rw [hbody, List.getD_eq_default _ _ (Nat.le_refl _), hf.crc]
  simp only [Link.awaits, Bool.and_eq_true, decide_eq_true_eq, hnext]
  exact ⟨⟨⟨hp, by rw [hlen]; exact hmax⟩, by rw [hbody]; exact List.isPrefixOf_iff_prefix.mpr List.prefix_rfl⟩, hbits⟩

end LastBit

/-! ## The command that a byte is (R157) -/

section ByteCommand
variable {l : Link} {byte : Byte}

theorem Link.byteCommand_of_not_request (h : l.phase ≠ .request) : l.byteCommand byte = .responseByteSent := by
  unfold Link.byteCommand
  split
  · exact absurd ‹_› h
  all_goals rfl

theorem Link.byteCommand_received (h : l.phase = .request)
    (hb : l.position = 0 ∨ l.position = 1 ∧ byte.toNat ≤ 40 ∨ 2 ≤ l.position ∧ l.position < l.length.toNat + 2) :
    l.byteCommand byte = .requestByteReceived byte := by
  simp only [Link.byteCommand, h]
  exact if_pos hb

theorem Link.byteCommand_bad (h : l.phase = .request)
    (hb : l.position = 1 ∧ 40 < byte.toNat ∨ 2 ≤ l.position ∧ l.position = l.length.toNat + 2 ∧ byte ≠ l.crc) :
    l.byteCommand byte = .badFrame byte := by
  simp only [Link.byteCommand, h]
  rw [if_neg (by rw [maxPayload]; omega), if_pos (hb.imp (fun h => h.1) fun h => h.2.2)]

theorem Link.byteCommand_named (h : l.phase = .request) (h2 : 2 ≤ l.position) (hend : l.position = l.length.toNat + 2) :
    l.byteCommand l.crc = requestNamed l.code l.payload := by
  simp only [Link.byteCommand, h]
  rw [if_neg (by omega), if_neg (by simp; omega)]

/-- R157: in REQUEST a byte goes on with the frame or ends it, bad or whole. -/
theorem Link.FrameSound.byte_cases (hf : l.FrameSound) (byte : Byte) :
    (l.position = 0 ∨ l.position = 1 ∧ byte.toNat ≤ 40 ∨ 2 ≤ l.position ∧ l.position < l.length.toNat + 2) ∨
      (l.position = 1 ∧ 40 < byte.toNat ∨ 2 ≤ l.position ∧ l.position = l.length.toNat + 2 ∧ byte ≠ l.crc) ∨
      2 ≤ l.position ∧ l.position = l.length.toNat + 2 ∧ byte = l.crc := by
  have hlen := hf.length
  by_cases hb : byte = l.crc
  · by_cases h2 : 2 ≤ l.position
    · obtain ⟨hle, -⟩ := hlen h2
      simp only [hb, ne_eq, not_true_eq_false, and_false, or_false, and_true]
      omega
    · simp only [hb, ne_eq, not_true_eq_false, and_false, or_false, and_true]
      omega
  · by_cases h2 : 2 ≤ l.position
    · obtain ⟨hle, -⟩ := hlen h2
      simp only [hb, ne_eq, not_false_eq_true, and_true, and_false, or_false]
      omega
    · simp only [hb, ne_eq, not_false_eq_true, and_true, and_false, or_false]
      omega

theorem Link.exists_receive
    (hb : l.position = 0 ∨ l.position = 1 ∧ byte.toNat ≤ 40 ∨ 2 ≤ l.position ∧ l.position < l.length.toNat + 2) :
    ∃ l1, l.receive byte = some l1 := by
  rcases hb with h0 | ⟨h1, hb⟩ | ⟨h2, hb⟩
  · exact ⟨_, Link.receive_of_zero h0⟩
  · exact ⟨_, Link.receive_of_one h1 hb⟩
  · exact ⟨_, Link.receive_of_payload h2 hb⟩

theorem Link.exists_refuseFrame
    (hb : l.position = 1 ∧ 40 < byte.toNat ∨ 2 ≤ l.position ∧ l.position = l.length.toNat + 2 ∧ byte ≠ l.crc) :
    ∃ l1, l.refuseFrame byte = some l1 := by
  rcases hb with ⟨h1, hb⟩ | ⟨h2, hend, hb⟩
  · exact ⟨_, Link.refuseFrame_of_length h1 hb⟩
  · exact ⟨_, Link.refuseFrame_of_crc h2 hend hb⟩

end ByteCommand

/-- The command that a byte is comes to the same at its last edge as whole. -/
theorem exec_atLastBit {s : State} (hs : s.LinkOk) (hphase : s.link.phase ≠ .idle) (hbits : s.link.bits = []) (byte : Byte) :
    exec (s.link.byteCommand byte) (s.atLastBit byte) = exec (s.link.byteCommand byte) s := by
  have hprefix : s.link.bits.isPrefixOf (bitsOf byte) = true := by rw [hbits]; rfl
  have hdone (l : Link) : (s.atLastBit byte).quiet.byteDone l s.link.sending = s.quiet.byteDone l s.link.sending :=
    State.byteDone_atLastBit (u := s.quiet) hbits
  by_cases hp : s.link.phase = .request
  · have hsending : s.link.sending = 0 := by rw [Link.sending, hp]
    have htakes : s.link.takesByte byte = true := Link.takesByte_request hp hprefix
    have htakes' : (s.atLastBit byte).link.takesByte byte = true := Link.takesByte_request hp (bitsOf_take_isPrefixOf byte)
    have hf := hs.frame hp
    rw [hsending] at hdone
    rcases hf.byte_cases byte with hb | hb | ⟨h2, hend, rfl⟩
    · obtain ⟨l1, hl⟩ := Link.exists_receive hb
      have hl' : (s.atLastBit byte).link.receive byte = some l1 := hl
      rw [Link.byteCommand_received hp hb, exec_requestByteReceived htakes hl, exec_requestByteReceived htakes' hl', hdone]
    · obtain ⟨l1, hl⟩ := Link.exists_refuseFrame hb
      have hl' : (s.atLastBit byte).link.refuseFrame byte = some l1 := hl
      rw [Link.byteCommand_bad hp hb, exec_badFrame htakes hl, exec_badFrame htakes' hl', hdone]
    · have ha := Link.awaits_of_complete hp hf h2 hend hprefix
      have ha' : (s.atLastBit s.link.crc).link.awaits s.link.code s.link.payload = true :=
        Link.awaits_of_complete (l := (s.atLastBit s.link.crc).link) hp ⟨hf.received, hf.crc, hf.payload, hf.length⟩ h2 hend
          (bitsOf_take_isPrefixOf _)
      rw [Link.byteCommand_named hp h2 hend]
      rcases requestNamed_spec s.link.code s.link.payload with ⟨hc, hn⟩ | ⟨-, n, hn⟩
      · rw [hn, exec_badCommand ha hc, exec_badCommand ha' hc]
        exact congrArg _ (hdone _)
      · by_cases hlen : s.link.payload.length = n
        · have hperform := rebits_performance (requestNamed s.link.code s.link.payload) s.quiet
            (s.pins.atLastBit s.link.sending) ((bitsOf s.link.crc).take 7)
          rw [exec_request_eq hn ha hlen rfl, exec_request_eq (s := s.atLastBit s.link.crc) hn ha' hlen hperform, hsending]
          have hframe := (performance_performed (requestNamed s.link.code s.link.payload) s.quiet).frame
          have hu : (performance (requestNamed s.link.code s.link.payload) s.quiet).1.link.bits = [] := by
            rw [hframe]
            exact hbits
          have hpins : (performance (requestNamed s.link.code s.link.payload) s.quiet).1.pins = s.pins := by
            rw [hframe]
            rfl
          rw [← hpins]
          exact congrArg _ (State.byteDone_atLastBit hu)
        · rw [exec_request_of_length hn ha hlen, exec_request_of_length hn ha' hlen]
          exact congrArg _ (hdone _)
  · have hafter : s.link.phase = .turnaround ∨ s.link.phase = .response ∨ s.link.phase = .trailing := by
      cases h : s.link.phase <;> simp [h] at hp hphase ⊢
    obtain ⟨l1, hsend, -⟩ := Link.exists_send hafter
    have hsend' : (s.atLastBit byte).link.send = some (l1, s.link.sending) := hsend
    rw [Link.byteCommand_of_not_request hp, exec_responseByteSent hsend, exec_responseByteSent hsend', hdone]

/-! ## Eight edges make a byte (R155) -/

theorem State.clockBits_singleton (s : State) (bit : Bool) : s.clockBits [bit] = s.sckFalls.sckRises bit := by
  show (match s.sckFalls.sckRises bit with | .next t => Host.Outcome.next t | stop => stop) = _
  cases s.sckFalls.sckRises bit <;> rfl

theorem State.clockBits_cons {s t : State} {bit : Bool} (rest : List Bool) (h : s.sckFalls.sckRises bit = .next t) :
    s.clockBits (bit :: rest) = t.clockBits rest := by
  simp only [State.clockBits, h]

theorem State.sckRises_of_idle {s : State} (sdi : Bool) (h : s.link.phase = .idle) :
    s.sckRises sdi = .next { s with pins := { s.pins with sckHigh := true } } := by
  simp only [State.sckRises, if_pos h]

theorem State.sckRises_of_bit {s : State} (sdi : Bool) (hphase : s.link.phase ≠ .idle) (hbits : s.link.bits.length < 7) :
    s.sckRises sdi = .next (s.bitSampled sdi) := by
  simp only [State.sckRises, if_neg hphase, if_pos hbits]
  rfl

theorem State.sckRises_of_byte {s : State} (sdi : Bool) (hphase : s.link.phase ≠ .idle) (hbits : 7 ≤ s.link.bits.length) :
    s.sckRises sdi = exec (s.link.byteCommand (byteOfBits (s.link.bits ++ [sdi]))) s := by
  simp only [State.sckRises, if_neg hphase, if_neg (Nat.not_lt.mpr hbits)]

/-- The pins are those of s but for SCK and SDO. -/
def Pins.SameButClock (p q : Pins) : Prop := q = { p with sckHigh := q.sckHigh, sdo := q.sdo }

/-- The bits that are left of a byte come to the command that the byte is, at its last edge. -/
theorem State.clockBits_rebit {s : State} (hphase : s.link.phase ≠ .idle) (byte : Byte) {bit : Bool} (rest : List Bool)
    {p : Pins} (hp : s.pins.SameButClock p) {before : List Bool} (hbits : before ++ bit :: rest = bitsOf byte) :
    (s.rebit p before).clockBits (bit :: rest) = exec (s.link.byteCommand byte) (s.atLastBit byte) := by
  have hlen := congrArg List.length hbits
  rw [List.length_append, List.length_cons, bitsOf_length] at hlen
  induction rest generalizing bit p before with
  | nil =>
    have h7 : before.length = 7 := by simpa using hlen
    have hfalls : (s.rebit p before).sckFalls = s.atLastBit byte := by
      have htake : (bitsOf byte).take 7 = before := by rw [← hbits, ← h7, List.take_left]
      rw [State.sckFalls_of_selected (s := s.rebit p before) hphase, State.atLastBit, htake, Pins.atLastBit]
      show s.rebit { p with sckHigh := false, sdo := some (s.link.sending.getLsbD (7 - before.length)) } before = _
      rw [h7, show p = _ from hp]
    rw [State.clockBits_singleton, hfalls, State.sckRises_of_byte (s := s.atLastBit byte) bit hphase (by rfl)]
    have hbyte : byteOfBits ((bitsOf byte).take 7 ++ [bit]) = byte := by
      rw [← hbits, ← h7, List.take_left, hbits, byteOfBits_bitsOf]
    exact congrArg (fun b => exec (s.link.byteCommand b) (s.atLastBit byte)) hbyte
  | cons next rest ih =>
    have h7 : before.length < 7 := by simp at hlen; omega
    have hrises : (s.rebit p before).sckFalls.sckRises bit = .next (s.rebit
        { p with sckHigh := true, sdo := some (s.link.sending.getLsbD (7 - before.length)) } (before ++ [bit])) := by
      rw [State.sckFalls_of_selected (s := s.rebit p before) hphase]
      exact State.sckRises_of_bit (s := State.rebit s _ before) bit hphase h7
    rw [State.clockBits_cons _ hrises]
    have hp' : s.pins.SameButClock { p with sckHigh := true, sdo := some (s.link.sending.getLsbD (7 - before.length)) } := by
      rw [Pins.SameButClock, show p = _ from hp]
    refine ih hp' (by simpa using hbits) ?_
    simp at hlen ⊢
    omega

theorem State.rebit_self {s : State} (h : s.link.bits = []) : s.rebit s.pins [] = s := by
  rw [State.rebit, ← h]
  rfl

/-! ## The bytes of a frame (R157) -/

theorem Link.receiveMany_cons {l l1 : Link} {b : Byte} (bs : List Byte) (h : l.receive b = some l1) :
    Link.receiveMany (b :: bs) l = Link.receiveMany bs l1 := by
  simp only [Link.receiveMany, h]

/-- The bytes of the payload leave a sound frame, with nothing changed but what counts them. -/
theorem Link.receiveMany_payload {l : Link} (bs : List Byte) (hf : l.FrameSound) (h2 : 2 ≤ l.position)
    (hlen : l.position + bs.length ≤ l.length.toNat + 2) (hbits : l.bits = []) :
    ∃ l1, Link.receiveMany bs l = some l1 ∧ l1.FrameSound ∧ l1.position = l.position + bs.length ∧ l1.phase = l.phase ∧
      l1.code = l.code ∧ l1.length = l.length ∧ l1.payload = l.payload ++ bs ∧ l1.bits = [] := by
  induction bs generalizing l with
  | nil => exact ⟨l, rfl, hf, rfl, rfl, rfl, rfl, (List.append_nil _).symm, hbits⟩
  | cons b bs ih =>
    rw [List.length_cons] at hlen
    have hreceive := Link.receive_of_payload (b := b) h2 (by omega)
    obtain ⟨l1, hmany, hf1, hposition, hphase, hcode, hlength, hpayload, hbits1⟩ :=
      ih (hf.receive hreceive) (by show 2 ≤ l.position + 1; omega) (by show l.position + 1 + bs.length ≤ l.length.toNat + 2; omega)
        rfl
    refine ⟨l1, (Link.receiveMany_cons bs hreceive).trans hmany, hf1, ?_, hphase, hcode, hlength, ?_, hbits1⟩
    · rw [hposition, List.length_cons]
      show l.position + 1 + bs.length = _
      omega
    · rw [hpayload, List.append_assoc]
      rfl

theorem byteOf_toNat_of_le {n : Nat} (h : n ≤ 40) : (byteOf n).toNat = n := by
  rw [byteOf, BitVec.toNat_ofNat]
  omega

/-- The bytes of a whole frame but its CRC leave the link awaiting that frame. -/
theorem Link.receiveMany_frame (code : Byte) {payload : List Byte} (hlen : payload.length ≤ 40) :
    ∃ l, Link.receiveMany (code :: byteOf payload.length :: payload) { Link.idle with phase := .request } = some l ∧
      l.awaits code payload = true ∧ l.crc = crcOf (code :: byteOf payload.length :: payload) ∧
      l.received = code :: byteOf payload.length :: payload := by
  have hn := byteOf_toNat_of_le hlen
  have h0 : Link.FrameSound { Link.idle with phase := .request } := ⟨rfl, rfl, rfl, by simp [Link.idle]⟩
  have hcode := Link.receive_of_zero (l := { Link.idle with phase := .request }) (b := code) rfl
  have hlength := Link.receive_of_one (b := byteOf payload.length)
    (l := { Link.idle with phase := .request, position := 1, code, crc := crcByte 0xFF code, bits := [] }) rfl
    (by rw [hn]; exact hlen)
  obtain ⟨l, hmany, hf, hposition, hphase, hc, hl, hpayload, hbits⟩ :=
    Link.receiveMany_payload payload ((h0.receive hcode).receive hlength) (Nat.le_refl 2)
      (by show 2 + payload.length ≤ (byteOf payload.length).toNat + 2; omega) rfl
  have h2 : 2 ≤ l.position := by rw [hposition]; exact Nat.le_add_right 2 _
  have hend : l.position = l.length.toNat + 2 := by
    rw [hposition, hl]
    show 2 + payload.length = (byteOf payload.length).toNat + 2
    omega
  have hreceived : l.received = code :: byteOf payload.length :: payload := by
    rw [Link.received_of_two_le h2, hc, hl, hpayload]
    rfl
  have hawaits := Link.awaits_of_complete hphase hf h2 hend (by rw [hbits]; rfl)
  rw [hc, hpayload] at hawaits
  exact ⟨l, (Link.receiveMany_cons _ hcode).trans ((Link.receiveMany_cons _ hlength).trans hmany), hawaits,
    hf.crc.trans (congrArg crcOf hreceived), hreceived⟩

/-- Settles O40: a byte by its place in the frame, eight edges by the bits that are left, a whole frame by its bytes in turn. -/
theorem requestBytesBuildTheFrame : Obligations.RequestBytesBuildTheFrame := by
  refine ⟨fun s byte hphase hbits => ?_, fun s byte hlink hframe hphase hbits => ?_, fun s sdi => ?_, fun code payload hlen => ?_⟩
  · have htakes := Link.takesByte_request hphase hbits
    refine ⟨fun h0 => ?_, fun h1 hb => ?_, fun h2 hb => ?_⟩
    · exact exec_requestByteReceived htakes (Link.receive_of_zero h0)
    · exact exec_requestByteReceived htakes (Link.receive_of_one h1 hb)
    · exact exec_requestByteReceived htakes (Link.receive_of_payload h2 hb)
  · have hs : s.LinkOk := ⟨hlink, s.frameSound_iff.mp hframe⟩
    have hlast := exec_atLastBit hs hphase hbits byte
    refine ⟨?_, ⟨s.rebit { s.pins with sckHigh := true } [byte.getLsbD 7], ?_, ?_⟩, Link.byteCommand_of_not_request,
      Link.byteCommand_received, Link.byteCommand_bad, fun hp h2 hend hb => ?_⟩
    · have hclock := State.clockBits_rebit hphase byte (bitsOf byte).tail (p := s.pins) rfl (before := []) rfl
      rw [State.rebit_self hbits] at hclock
      exact hclock.trans hlast
    · rw [State.sckRises_of_bit _ hphase (by simp [hbits]), State.bitSampled, hbits]
      rfl
    · exact (State.clockBits_rebit hphase byte _ (p := { s.pins with sckHigh := true }) rfl (before := [byte.getLsbD 7])
        rfl).trans hlast
    · subst hb
      have ha := Link.awaits_of_complete hp (hs.frame hp) h2 hend (by rw [hbits]; rfl)
      rw [Link.byteCommand_named hp h2 hend]
      rcases requestNamed_spec s.link.code s.link.payload with ⟨hc, hn⟩ | ⟨hc, n, hn⟩
      · exact ⟨ha, fun _ => hn, fun h => absurd h hc⟩
      · exact ⟨ha, fun h => absurd hc h, fun _ => ⟨n, hn⟩⟩
  · exact ⟨State.sckRises_of_bit sdi, State.sckRises_of_idle sdi⟩
  · exact Link.receiveMany_frame code hlen

end Sys2Proof.Machine
end

section
/-! The fetch list (R59 to R62) and the arbiter (R67, R68): promotion by its three groups, the places taken, and the grant. -/

namespace Sys2Proof.Machine

/-! ## Promotion (R60, R61) -/

/-- The QUEUED requests of a list. -/
def queuedOf (list : List FetchRequest) : List FetchRequest := list.filter fun r => decide (r.status = .queued)

/-- The ISSUED requests of a list. -/
def issuedOf (list : List FetchRequest) : List FetchRequest := list.filter fun r => decide (r.status = .issued)

/-- The promoted group: the QUEUED requests of the blocking entries, entry by entry. -/
def groupOf (blocking : List Nat) (list : List FetchRequest) : List FetchRequest :=
  blocking.flatMap fun i => (queuedOf list).filter fun r => decide (r.entry = i)

/-- The QUEUED requests of other entries. -/
def othersOf (blocking : List Nat) (list : List FetchRequest) : List FetchRequest :=
  (queuedOf list).filter fun r => !blocking.contains r.entry

theorem promoted_eq (blocking : List Nat) (list : List FetchRequest) :
    promoted blocking list = issuedOf list ++ groupOf blocking list ++ othersOf blocking list := rfl

theorem queuedOf_append (l k : List FetchRequest) : queuedOf (l ++ k) = queuedOf l ++ queuedOf k := List.filter_append _ _

theorem issuedOf_append (l k : List FetchRequest) : issuedOf (l ++ k) = issuedOf l ++ issuedOf k := List.filter_append _ _

theorem mem_queuedOf {list : List FetchRequest} {r : FetchRequest} : r ∈ queuedOf list ↔ r ∈ list ∧ r.status = .queued := by
  simp [queuedOf]

theorem mem_issuedOf {list : List FetchRequest} {r : FetchRequest} : r ∈ issuedOf list ↔ r ∈ list ∧ r.status = .issued := by
  simp [issuedOf]

theorem mem_groupOf {blocking : List Nat} {list : List FetchRequest} {r : FetchRequest} :
    r ∈ groupOf blocking list ↔ r ∈ list ∧ r.status = .queued ∧ r.entry ∈ blocking := by
  simp only [groupOf, List.mem_flatMap, List.mem_filter, mem_queuedOf, decide_eq_true_eq]
  constructor
  · rintro ⟨i, hi, ⟨hr, hq⟩, rfl⟩
    exact ⟨hr, hq, hi⟩
  · rintro ⟨hr, hq, hi⟩
    exact ⟨r.entry, hi, ⟨hr, hq⟩, rfl⟩

theorem othersOf_eq_filter (blocking : List Nat) (list : List FetchRequest) :
    othersOf blocking list = list.filter fun r => decide (r.status = .queued) && !blocking.contains r.entry := by
  rw [othersOf, queuedOf, List.filter_filter]
  exact List.filter_congr fun r _ => Bool.and_comm _ _

theorem queuedOf_of_queued {list : List FetchRequest} (h : ∀ r ∈ list, r.status = .queued) : queuedOf list = list :=
  List.filter_eq_self.mpr fun r hr => decide_eq_true (h r hr)

theorem issuedOf_of_queued {list : List FetchRequest} (h : ∀ r ∈ list, r.status = .queued) : issuedOf list = [] :=
  List.filter_eq_nil_iff.mpr fun r hr => by simp [h r hr]

theorem queuedOf_issuedOf (list : List FetchRequest) : queuedOf (issuedOf list) = [] :=
  List.filter_eq_nil_iff.mpr fun r hr => by simp [(mem_issuedOf.mp hr).2]

theorem groupOf_queued (blocking : List Nat) (list : List FetchRequest) :
    ∀ r ∈ groupOf blocking list, r.status = .queued := fun _ hr => (mem_groupOf.mp hr).2.1

theorem othersOf_queued (blocking : List Nat) (list : List FetchRequest) :
    ∀ r ∈ othersOf blocking list, r.status = .queued := fun _ hr => (mem_queuedOf.mp (List.mem_of_mem_filter hr)).2

/-- Settles O28: the three parts of the promoted list. -/
theorem promotionReordersTheList : Obligations.PromotionReordersTheList := by
  intro blocking list hsorted
  refine ⟨promoted_perm blocking (hsorted.imp Nat.ne_of_lt) list, issuedOf list, groupOf blocking list, othersOf blocking list,
    rfl, rfl, fun r => mem_groupOf, List.pairwise_flatMap.mpr ⟨fun i _ => ?_, hsorted.imp fun hij a ha b hb => ?_⟩,
    othersOf_eq_filter _ _⟩
  · refine List.Pairwise.imp_of_mem (R := fun _ _ => True) (fun ha hb _ => ?_) (List.pairwise_of_forall fun _ _ => trivial)
    have ha' := of_decide_eq_true (List.mem_filter.mp ha).2
    have hb' := of_decide_eq_true (List.mem_filter.mp hb).2
    omega
  · have ha' := of_decide_eq_true (List.mem_filter.mp ha).2
    have hb' := of_decide_eq_true (List.mem_filter.mp hb).2
    omega

/-- The lists have the same ISSUED requests, the same QUEUED ones of each blocking entry and the same QUEUED ones beside. -/
structure SameGroups (blocking : List Nat) (l k : List FetchRequest) : Prop where
  issued : issuedOf l = issuedOf k
  group : ∀ i ∈ blocking,
    ((queuedOf l).filter fun r => decide (r.entry = i)) = (queuedOf k).filter fun r => decide (r.entry = i)
  others : othersOf blocking l = othersOf blocking k

namespace SameGroups
variable {blocking : List Nat} {l k m n : List FetchRequest}

theorem refl (blocking : List Nat) (l : List FetchRequest) : SameGroups blocking l l := ⟨rfl, fun _ _ => rfl, rfl⟩

theorem symm (h : SameGroups blocking l k) : SameGroups blocking k l :=
  ⟨h.issued.symm, fun i hi => (h.group i hi).symm, h.others.symm⟩

theorem trans (h : SameGroups blocking l k) (h' : SameGroups blocking k m) : SameGroups blocking l m :=
  ⟨h.issued.trans h'.issued, fun i hi => (h.group i hi).trans (h'.group i hi), h.others.trans h'.others⟩

theorem append (h : SameGroups blocking l k) (h' : SameGroups blocking m n) : SameGroups blocking (l ++ m) (k ++ n) := by
  refine ⟨?_, fun i hi => ?_, ?_⟩
  · rw [issuedOf_append, issuedOf_append, h.issued, h'.issued]
  · rw [queuedOf_append, queuedOf_append, List.filter_append, List.filter_append, h.group i hi, h'.group i hi]
  · rw [othersOf, othersOf, queuedOf_append, queuedOf_append, List.filter_append, List.filter_append]
    exact congrArg₂ _ h.others h'.others

/-- A promotion asks for these groups alone. -/
theorem promoted_eq (h : SameGroups blocking l k) : promoted blocking l = promoted blocking k := by
  have hgroup : groupOf blocking l = groupOf blocking k := by
    rw [groupOf, groupOf, List.flatMap_def, List.flatMap_def, List.map_congr_left h.group]
  rw [Sys2Proof.Machine.promoted_eq, Sys2Proof.Machine.promoted_eq, h.issued, hgroup, h.others]

end SameGroups

/-- Of a list without repetition, the entries taken one by one give each of its own. -/
theorem flatMap_filter_entry {is : List Nat} (h : is.Nodup) (rs : List FetchRequest) {i : Nat} (hi : i ∈ is) :
    ((is.flatMap fun j => rs.filter fun r => decide (r.entry = j)).filter fun r => decide (r.entry = i)) =
      rs.filter fun r => decide (r.entry = i) := by
  induction is with
  | nil => cases hi
  | cons j is ih =>
    obtain ⟨hj, hn⟩ := List.nodup_cons.mp h
    rw [List.flatMap_cons, List.filter_append, List.filter_filter]
    by_cases hij : i = j
    · subst hij
      have hrest : ((is.flatMap fun j => rs.filter fun r => decide (r.entry = j)).filter fun r => decide (r.entry = i)) = [] := by
        refine List.filter_eq_nil_iff.mpr fun r hr => ?_
        obtain ⟨j, hjs, hrj⟩ := List.mem_flatMap.mp hr
        have hentry := of_decide_eq_true (List.mem_filter.mp hrj).2
        rw [decide_eq_true_eq]
        rintro rfl
        exact hj (hentry ▸ hjs)
      rw [hrest, List.append_nil]
      exact List.filter_congr fun r _ => Bool.and_self _
    · have hfirst : (rs.filter fun r => decide (r.entry = i) && decide (r.entry = j)) = [] := by
        refine List.filter_eq_nil_iff.mpr fun r _ => ?_
        rw [Bool.and_eq_true, decide_eq_true_eq, decide_eq_true_eq]
        rintro ⟨rfl, h⟩
        exact hij h
      rw [hfirst, List.nil_append]
      exact ih hn ((List.mem_cons.mp hi).resolve_left hij)

theorem queuedOf_promoted (blocking : List Nat) (list : List FetchRequest) :
    queuedOf (promoted blocking list) = groupOf blocking list ++ othersOf blocking list := by
  rw [promoted_eq, queuedOf_append, queuedOf_append, queuedOf_issuedOf, queuedOf_of_queued (groupOf_queued _ _),
    queuedOf_of_queued (othersOf_queued _ _), List.nil_append]

/-- A promotion keeps the groups. -/
theorem promoted_sameGroups {blocking : List Nat} (h : blocking.Nodup) (list : List FetchRequest) :
    SameGroups blocking (promoted blocking list) list := by
  refine ⟨?_, fun i hi => ?_, ?_⟩
  · rw [promoted_eq, issuedOf_append, issuedOf_append, issuedOf_of_queued (groupOf_queued _ _),
      issuedOf_of_queued (othersOf_queued _ _), List.append_nil, List.append_nil, issuedOf, issuedOf, List.filter_filter]
    exact List.filter_congr fun r _ => Bool.and_self _
  · have hothers : ((othersOf blocking list).filter fun r => decide (r.entry = i)) = [] := by
      refine List.filter_eq_nil_iff.mpr fun r hr => ?_
      have hnot := (List.mem_filter.mp hr).2
      rw [decide_eq_true_eq]
      rintro rfl
      simp [hi] at hnot
    rw [queuedOf_promoted, List.filter_append, hothers, List.append_nil, groupOf, flatMap_filter_entry h _ hi]
  · have hgroup : ((groupOf blocking list).filter fun r => !blocking.contains r.entry) = [] := by
      refine List.filter_eq_nil_iff.mpr fun r hr => ?_
      simp [(mem_groupOf.mp hr).2.2]
    rw [othersOf, queuedOf_promoted, List.filter_append, hgroup, List.nil_append, othersOf, List.filter_filter]
    exact List.filter_congr fun r _ => Bool.and_self _

/-- A promoted list is promoted already. -/
theorem promoted_promoted {blocking : List Nat} (h : blocking.Nodup) (list : List FetchRequest) :
    promoted blocking (promoted blocking list) = promoted blocking list :=
  (promoted_sameGroups h list).promoted_eq

theorem promoted_nil_list (blocking : List Nat) : promoted blocking [] = [] := by
  simp [promoted]

/-- With nothing to promote a list whose head alone can be ISSUED stays. -/
theorem promoted_nil {list : List FetchRequest} (h : ∀ r ∈ list.tail, r.status = .queued) : promoted [] list = list := by
  have hothers : othersOf [] list = queuedOf list := List.filter_eq_self.mpr fun _ _ => rfl
  rw [promoted_eq, hothers]
  cases list with
  | nil => rfl
  | cons r rest =>
    have hrest : issuedOf rest = [] := issuedOf_of_queued h
    have hqueued : queuedOf rest = rest := queuedOf_of_queued h
    have hsplit : issuedOf (r :: rest) = issuedOf [r] ++ issuedOf rest := issuedOf_append [r] rest
    have hsplit' : queuedOf (r :: rest) = queuedOf [r] ++ queuedOf rest := queuedOf_append [r] rest
    rw [hsplit, hsplit', hrest, hqueued]
    cases hr : r.status <;> simp [issuedOf, queuedOf, groupOf, hr]

/-! ## The places taken (R14) -/

/-- The request that an entry places (R10). -/
def Entry.request (e : Entry) (i : Nat) : FetchRequest := ⟨i, e.base, .queued, false⟩

theorem Entry.base_congr {e f : Entry} (h : e.desc = f.desc) : e.base = f.base := by rw [Entry.base, Entry.base, h]

theorem State.placeRequest_entry (s : State) (i j : Nat) :
    (s.placeRequest i).entry j = if i = j ∧ j < s.entries.length then { s.entry j with state := .fetching } else s.entry j := by
  rw [State.entry, State.placeRequest_entries, entryAt_set]
  split
  · next h => rw [h.1]
  · rfl

/-- Placing requests moves their entries to FETCHING and appends the requests. -/
theorem State.placeRequests_spec (is : List Nat) (s : State) :
    (∀ j, (is.foldl State.placeRequest s).entry j =
      if j ∈ is ∧ j < s.entries.length then { s.entry j with state := .fetching } else s.entry j) ∧
      (is.foldl State.placeRequest s).entries.length = s.entries.length ∧
      (is.foldl State.placeRequest s).port.list = s.port.list ++ is.map fun i => (s.entry i).request i := by
  induction is generalizing s with
  | nil => exact ⟨fun j => by simp, rfl, by simp⟩
  | cons i is ih =>
    obtain ⟨hentry, hlength, hlist⟩ := ih (s.placeRequest i)
    have hlen : (s.placeRequest i).entries.length = s.entries.length := by simp
    simp only [List.foldl_cons]
    refine ⟨fun j => ?_, hlength.trans hlen, ?_⟩
    · rw [hentry j, hlen, State.placeRequest_entry]
      by_cases hj : j < s.entries.length <;> by_cases hi : i = j <;> by_cases hm : j ∈ is <;>
        simp [hj, hi, hm, eq_comm]
    · rw [hlist]
      have hrequest : ∀ j, ((s.placeRequest i).entry j).request j = (s.entry j).request j := by
        intro j
        rw [State.placeRequest_entry]
        split <;> rfl
      simp only [hrequest]
      show s.port.list ++ [_] ++ _ = _
      rw [List.append_assoc]
      rfl

/-! ## The arbiter (R67, R68) -/

theorem arbiterChoice_kind2 {waits1 waits2 waits3 : Bool} {last : Option GrantKind}
    (h : arbiterChoice waits1 waits2 waits3 last = some .kind2) : waits2 = true := by
  cases waits2
  · cases waits1 <;> cases waits3 <;> simp [arbiterChoice] at h
  · rfl

theorem State.grant_head {s : State} {k : GrantKind} {r : FetchRequest} {rest : List FetchRequest} (hb : s.port.bus = none)
    (hc : s.choice = some k) (hk : k ≠ .kind2) (hl : s.port.list = r :: rest) :
    s.grant = { s with port := ⟨{ r with status := .issued } :: rest, some ⟨.fetch, r.addr, .read, 1⟩, some k⟩ } := by
  cases k
  case kind2 => exact absurd rfl hk
  all_goals simp only [State.grant, hb, hc, State.issueHead, hl]

theorem State.waitingBeat_eq {s : State} {x : Transaction} {b : Beat} (hx : s.host = some x) (hb : x.current = some b)
    (hw : s.waitingBeat.isSome = true) : s.waitingBeat = some b := by
  simp only [State.waitingBeat, hx, hb] at hw ⊢
  obtain ⟨y, hy⟩ := Option.isSome_iff_exists.mp hw
  rw [hy]
  obtain ⟨hmem, -⟩ := Option.filter_eq_some_iff.mp hy
  exact hmem.symm

theorem State.grant_beat {s : State} {x : Transaction} {b : Beat} (hbus : s.port.bus = none) (hc : s.choice = some .kind2)
    (hx : s.host = some x) (hb : x.current = some b) :
    s.grant = { s with host := some { x with current := some { b with state := .atMemory } }
                       port := ⟨s.port.list, some ⟨.host true, b.addr, b.op, 1⟩, some .kind2⟩ } := by
  have hw : s.waitingBeat = some b := State.waitingBeat_eq hx hb (arbiterChoice_kind2 hc)
  simp only [State.grant, hbus, hc, State.issueBeat, hw, State.setBeatState, hx, hb, Option.map_some]

/-- Settles O27: the table by its rows, and each grant by what it issues. -/
theorem arbiterGrantsByTable : Obligations.ArbiterGrantsByTable := by
  refine ⟨fun w2 w3 last => ⟨rfl, rfl, rfl, rfl, rfl⟩, fun s hb => ⟨fun k r rest hc hk hl => ?_, fun x b hc hx hcur => ?_, ?_⟩⟩
  · exact State.grant_head hb hc hk hl
  · exact State.grant_beat hb hc hx hcur
  · exact State.grant_of_none

end Sys2Proof.Machine
end

section
/-! What each operation on an entry keeps: that the entry is sound, and whether it waits for a shadow or covers a beat. -/

namespace Sys2Proof.Machine

/-! ## Sound ARMED entries (R9) -/

section Armed
variable {e : Entry} {d : Descriptor} {rt : Runtime}

theorem Entry.armed_sound : (⟨.armed, some d, rt⟩ : Entry).sound = true ↔ d.valid = true ∧ rt.armedSound d = true := by
  simp [Entry.sound]

theorem Entry.eq_mk {st : EntryState} (hd : e.desc = some d) (hs : e.state = st) : e = ⟨st, some d, e.rt⟩ := by
  rw [← hd, ← hs]

theorem Runtime.armedSound_condition (hk : d.kind = .condition) :
    rt.armedSound d = true ↔ { rt with shadow := 0 } = Runtime.zero := by
  simp [Runtime.armedSound, hk]

theorem Runtime.armedSound_deadline (hk : d.kind = .deadline) :
    rt.armedSound d = true ↔
      1 ≤ rt.remaining ∧ rt.remaining ≤ d.reload.toNat ∧ (rt.spared = true → rt.remaining = d.reload.toNat) ∧
        { rt with remaining := 0, spared := false } = Runtime.zero := by
  simp only [Runtime.armedSound, hk, decide_eq_true_eq]

theorem Runtime.armedSound_total (hk : d.kind = .count) (hm : d.countMode = .total) :
    rt.armedSound d = true ↔
      rt.spared = false ∧ (d.changeOnly = true ∨ rt.shadow = 0) ∧ 1 ≤ rt.remaining ∧ rt.remaining ≤ d.reload.toNat ∧
        { rt with shadow := 0, remaining := 0 } = Runtime.zero := by
  simp [Runtime.armedSound, hk, hm, and_assoc]

theorem Runtime.armedSound_rate (hk : d.kind = .count) (hm : d.countMode = .rate) :
    rt.armedSound d = true ↔
      rt.spared = false ∧ (d.changeOnly = true ∨ rt.shadow = 0) ∧ rt.remaining = 0 ∧ rt.lapseTick = 0 ∧
        rt.allowance ≤ d.reload.toNat ∧ 1 ≤ rt.windowLeft ∧ rt.windowLeft ≤ d.window.toNat ∧ rt.excess ≤ 65535 ∧
        (0 < rt.allowance → rt.windowTripped = false) ∧ (rt.windowTripped = false → rt.excess = 0) := by
  simp only [Runtime.armedSound, hk, hm, Bool.and_eq_true, Bool.or_eq_true, decide_eq_true_eq, and_assoc]

/-- Field 11 of Table 1-2: outside CONDITION the reload is nonzero. -/
theorem Descriptor.reload_pos (h : d.valid = true) (hk : d.kind ≠ .condition) : 1 ≤ d.reload.toNat := by
  simp only [Descriptor.valid, Bool.and_eq_true, usedNonzero] at h
  obtain ⟨⟨⟨-, hreload⟩, -⟩, -⟩ := h
  have hne : d.reload ≠ 0 := by simpa [hk] using hreload
  exact Nat.one_le_iff_ne_zero.mpr fun h0 => hne (BitVec.eq_of_toNat_eq h0)

/-- Field 12 of Table 1-2: in RATE mode the window is nonzero. -/
theorem Descriptor.window_pos (h : d.valid = true) (hr : d.isRate = true) : 1 ≤ d.window.toNat := by
  simp only [Descriptor.valid, Bool.and_eq_true, usedNonzero] at h
  obtain ⟨⟨-, hwindow⟩, -⟩ := h
  have hne : d.window ≠ 0 := by simpa [hr] using hwindow
  exact Nat.one_le_iff_ne_zero.mpr fun h0 => hne (BitVec.eq_of_toNat_eq h0)

/-- Another shadow leaves a shadow-bearing entry's fields sound. -/
theorem Runtime.armedSound_shadow (hb : d.shadowBearing = true) (v : Word) :
    ({ rt with shadow := v }).armedSound d = true ↔ rt.armedSound d = true := by
  cases hk : d.kind with
  | condition => rw [Runtime.armedSound_condition hk, Runtime.armedSound_condition hk]
  | deadline => simp [Descriptor.shadowBearing, hk] at hb
  | count =>
    have hchange : d.changeOnly = true := by simpa [Descriptor.shadowBearing, hk] using hb
    cases hm : d.countMode
    · simp [Runtime.armedSound_total hk hm, hchange]
    · simp [Runtime.armedSound_rate hk hm, hchange]

/-- The start values are those of a sound ARMED entry. -/
theorem Descriptor.startValues_armedSound (h : d.valid = true) : d.startValues.armedSound d = true := by
  cases hk : d.kind with
  | condition =>
    rw [Runtime.armedSound_condition hk]
    simp [Descriptor.startValues, Descriptor.isDeadline, Descriptor.isTotal, Descriptor.isRate, hk, Runtime.zero]
  | deadline =>
    have hreload := d.reload_pos h (by simp [hk])
    rw [Runtime.armedSound_deadline hk]
    simp [Descriptor.startValues, Descriptor.isDeadline, Descriptor.isRate, hk, Runtime.zero, hreload]
  | count =>
    have hreload := d.reload_pos h (by simp [hk])
    cases hm : d.countMode with
    | total =>
      rw [Runtime.armedSound_total hk hm]
      simp [Descriptor.startValues, Descriptor.isTotal, Descriptor.isRate, hk, hm, Runtime.zero, hreload]
    | rate =>
      have hwindow := d.window_pos h (by simp [Descriptor.isRate, hk, hm])
      rw [Runtime.armedSound_rate hk hm]
      simp [Descriptor.startValues, Descriptor.isDeadline, Descriptor.isTotal, Descriptor.isRate, hk, hm, hwindow]

end Armed

/-! ## Soundness under the operations on an entry -/

section Sound
variable {e : Entry} {d : Descriptor}

@[simp] theorem Entry.empty_sound : Entry.empty.sound = true := rfl

/-- A sound entry outside EMPTY holds a descriptor. -/
theorem Entry.sound.exists_desc (h : e.sound = true) (hs : e.state ≠ .empty) : ∃ d, e.desc = some d := by
  cases hd : e.desc with
  | none => simp [Entry.sound, hd, hs] at h
  | some d => exact ⟨d, rfl⟩

theorem Entry.shadowBearing_of_desc (hd : e.desc = some d) : e.shadowBearing = d.shadowBearing := by
  simp [Entry.shadowBearing, hd]

theorem Entry.shadowBearing_congr {f : Entry} (h : e.desc = f.desc) : e.shadowBearing = f.shadowBearing := by
  rw [Entry.shadowBearing, Entry.shadowBearing, h]

/-- An entry that waits for a shadow bears one. -/
theorem Entry.sound.bearing_of_waiting (h : e.sound = true) (hw : e.state.waiting = true) : e.shadowBearing = true := by
  have hne : e.state ≠ .empty := by rintro hs; simp [hs, EntryState.waiting] at hw
  obtain ⟨d, hd⟩ := Entry.sound.exists_desc h hne
  rw [Entry.shadowBearing_of_desc hd]
  cases hs : e.state <;> simp_all [Entry.sound, EntryState.waiting]

/-- Outside ARMED and LAPSED a loaded entry stands at its start values. -/
theorem Entry.sound_of_waiting (hd : e.desc = some d) (hw : e.state.waiting = true) :
    e.sound = true ↔ d.valid = true ∧ d.shadowBearing = true ∧ e.rt = d.startValues := by
  cases hs : e.state <;> simp_all [Entry.sound, EntryState.waiting]

theorem Entry.restarted_of_desc (hd : e.desc = some d) (st : EntryState) : e.restarted st = ⟨st, some d, d.startValues⟩ := by
  simp [Entry.restarted, hd]

theorem Entry.restarted_loaded_sound (h : e.sound = true) (hs : e.state ≠ .empty) : (e.restarted .loaded).sound = true := by
  obtain ⟨d, hd⟩ := Entry.sound.exists_desc h hs
  rw [Entry.restarted_of_desc hd]
  simpa [Entry.sound] using Entry.sound.valid h hd

theorem Entry.exists_desc_of_bearing (hb : e.shadowBearing = true) : ∃ d, e.desc = some d ∧ d.shadowBearing = true := by
  cases hd : e.desc with
  | none => simp [Entry.shadowBearing, hd] at hb
  | some d => exact ⟨d, rfl, (Entry.shadowBearing_of_desc hd) ▸ hb⟩

theorem Entry.restarted_waiting_sound (h : e.sound = true) (hb : e.shadowBearing = true) {st : EntryState}
    (hw : st.waiting = true) : (e.restarted st).sound = true := by
  obtain ⟨d, hd, hbears⟩ := Entry.exists_desc_of_bearing hb
  rw [Entry.restarted_of_desc hd, Entry.sound_of_waiting rfl hw]
  exact ⟨Entry.sound.valid h hd, hbears, rfl⟩

/-- Arming an entry that bears no shadow (R13). -/
theorem Entry.restarted_armed_sound (h : e.sound = true) (hs : e.state ≠ .empty) : (e.restarted .armed).sound = true := by
  obtain ⟨d, hd⟩ := Entry.sound.exists_desc h hs
  have hvalid := Entry.sound.valid h hd
  rw [Entry.restarted_of_desc hd, Entry.armed_sound]
  exact ⟨hvalid, d.startValues_armedSound hvalid⟩

/-- The entry of a completed fetch: ARMED with the word read (R15). -/
def Entry.armedWith (e : Entry) (v : Word) : Entry :=
  { e.restarted .armed with rt := { (e.restarted .armed).rt with shadow := v } }

theorem Entry.armedWith_sound (h : e.sound = true) (hb : e.shadowBearing = true) (v : Word) : (e.armedWith v).sound = true := by
  obtain ⟨d, hd, hbears⟩ := Entry.exists_desc_of_bearing hb
  have hvalid := Entry.sound.valid h hd
  rw [Entry.armedWith, Entry.restarted_of_desc hd, Entry.armed_sound]
  exact ⟨hvalid, (Runtime.armedSound_shadow hbears v).mpr (d.startValues_armedSound hvalid)⟩

/-- A place taken or given back moves a waiting entry between PENDING and FETCHING alone. -/
theorem Entry.waiting_sound (h : e.sound = true) (hw : e.state.waiting = true) {st : EntryState} (hst : st.waiting = true) :
    ({ e with state := st } : Entry).sound = true := by
  have hne : e.state ≠ .empty := by rintro hs; simp [hs, EntryState.waiting] at hw
  obtain ⟨d, hd⟩ := Entry.sound.exists_desc h hne
  have hiff := Entry.sound_of_waiting (e := { e with state := st }) hd hst
  exact hiff.mpr ((Entry.sound_of_waiting hd hw).mp h)

/-- A verdict is that of an ARMED CONDITION entry or of an ARMED COUNT entry, or none. -/
theorem Entry.judge_cases (e : Entry) (addr : Addr) (op : BeatOp) :
    e.judge addr op = .none e ∨
      ∃ d, e.desc = some d ∧ e.state = .armed ∧
        (e.judge addr op = judgeCondition d e op ∨
          d.kind = .count ∧
            (d.countMode = .total ∧ e.judge addr op = judgeTotal d e ∨ d.countMode = .rate ∧ e.judge addr op = judgeRate d e)) := by
  unfold Entry.judge
  split
  · exact .inl rfl
  · next d hd =>
    split
    · next hact =>
      have harmed := of_decide_eq_true (Bool.and_eq_true_iff.mp hact).1
      split
      · exact .inr ⟨d, hd, harmed, .inl rfl⟩
      · exact .inl rfl
      · next hk =>
        split
        · refine .inr ⟨d, hd, harmed, .inr ⟨hk, ?_⟩⟩
          unfold judgeCount
          split
          · next hm => exact .inl ⟨hm, rfl⟩
          · next hm => exact .inr ⟨hm, rfl⟩
        · exact .inl rfl
    · exact .inl rfl

/-- The verdict of a CONDITION entry: none, or a trip of a write (R38). -/
theorem judgeCondition_cases (d : Descriptor) (e : Entry) (op : BeatOp) :
    judgeCondition d e op = .none e ∨
      (∃ data strobes, op = .write data strobes) ∧ judgeCondition d e op = ⟨e, some .conditionBroken, some d.action⟩ := by
  unfold judgeCondition
  split
  · exact .inl rfl
  · split
    · exact .inr ⟨⟨_, _, rfl⟩, rfl⟩
    · exact .inl rfl

section Counts
variable {rt : Runtime}

theorem judgeTotal_sound (h : (⟨.armed, some d, rt⟩ : Entry).sound = true) (hk : d.kind = .count)
    (hm : d.countMode = .total) : (judgeTotal d ⟨.armed, some d, rt⟩).entry.sound = true := by
  obtain ⟨hvalid, hrt⟩ := Entry.armed_sound.mp h
  obtain ⟨hspared, hshadow, hlow, hhigh, hzero⟩ := (Runtime.armedSound_total hk hm).mp hrt
  unfold judgeTotal
  split
  · next hmore =>
    refine Entry.armed_sound.mpr ⟨hvalid, (Runtime.armedSound_total hk hm).mpr ?_⟩
    exact ⟨hspared, hshadow, Nat.le_sub_one_of_lt hmore, Nat.le_trans (Nat.sub_le _ _) hhigh, hzero⟩
  · refine Entry.armed_sound.mpr ⟨hvalid, (Runtime.armedSound_total hk hm).mpr ?_⟩
    exact ⟨hspared, hshadow, d.reload_pos hvalid (by simp [hk]), Nat.le_refl _, hzero⟩

theorem judgeRate_sound (h : (⟨.armed, some d, rt⟩ : Entry).sound = true) (hk : d.kind = .count)
    (hm : d.countMode = .rate) : (judgeRate d ⟨.armed, some d, rt⟩).entry.sound = true := by
  obtain ⟨hvalid, hrt⟩ := Entry.armed_sound.mp h
  obtain ⟨hspared, hshadow, hremaining, hlapse, hallowance, hleft, hwindow, hexcess, htripped, hnone⟩ :=
    (Runtime.armedSound_rate hk hm).mp hrt
  unfold judgeRate
  split
  · next hmore =>
    refine Entry.armed_sound.mpr ⟨hvalid, (Runtime.armedSound_rate hk hm).mpr ?_⟩
    exact ⟨hspared, hshadow, hremaining, hlapse, Nat.le_trans (Nat.sub_le _ _) hallowance, hleft, hwindow, hexcess,
      fun _ => htripped hmore, hnone⟩
  · next hspent =>
    split
    · next hw =>
      refine Entry.armed_sound.mpr ⟨hvalid, (Runtime.armedSound_rate hk hm).mpr ?_⟩
      exact ⟨hspared, hshadow, hremaining, hlapse, hallowance, hleft, hwindow, Nat.min_le_right _ _, htripped,
        fun hn => absurd (hw.symm.trans hn) (by decide)⟩
    · refine Entry.armed_sound.mpr ⟨hvalid, (Runtime.armedSound_rate hk hm).mpr ?_⟩
      exact ⟨hspared, hshadow, hremaining, hlapse, hallowance, hleft, hwindow, hexcess, fun hp => absurd hp hspent,
        fun hn => absurd hn.symm Bool.false_ne_true⟩

theorem ticked_deadline_sound (h : (⟨.armed, some d, rt⟩ : Entry).sound = true) (hk : d.kind = .deadline) (now : TickCount) :
    ((⟨.armed, some d, rt⟩ : Entry).ticked now).sound = true := by
  obtain ⟨hvalid, hrt⟩ := Entry.armed_sound.mp h
  obtain ⟨hlow, hhigh, hspared, hzero⟩ := (Runtime.armedSound_deadline hk).mp hrt
  by_cases hlast : 1 < rt.remaining
  · rw [Entry.ticked_deadline_counts rfl rfl hk hlast, Entry.armed_sound, Runtime.armedSound_deadline hk]
    exact ⟨hvalid, Nat.le_sub_one_of_lt hlast, Nat.le_trans (Nat.sub_le _ _) hhigh, fun hn => absurd hn Bool.false_ne_true, hzero⟩
  · have hone : rt.remaining = 1 := by omega
    cases hs : rt.spared with
    | true =>
      rw [Entry.ticked_deadline_spared rfl rfl hk hone hs, Entry.armed_sound, Runtime.armedSound_deadline hk]
      exact ⟨hvalid, hlow, hhigh, fun hn => absurd hn Bool.false_ne_true, hzero⟩
    | false =>
      rw [Entry.ticked_deadline_lapses rfl rfl hk hone hs]
      simp only [Runtime.zero, Runtime.mk.injEq] at hzero
      simp [Entry.sound, hvalid, Descriptor.isDeadline, hk, Runtime.zero, hzero, hs]

theorem ticked_rate_sound (h : (⟨.armed, some d, rt⟩ : Entry).sound = true) (hk : d.kind = .count)
    (hm : d.countMode = .rate) (now : TickCount) : ((⟨.armed, some d, rt⟩ : Entry).ticked now).sound = true := by
  obtain ⟨hvalid, hrt⟩ := Entry.armed_sound.mp h
  obtain ⟨hspared, hshadow, hremaining, hlapse, hallowance, hleft, hwindow, hexcess, htripped, hnone⟩ :=
    (Runtime.armedSound_rate hk hm).mp hrt
  by_cases hlast : 1 < rt.windowLeft
  · rw [Entry.ticked_rate_counts rfl rfl hk hm hlast, Entry.armed_sound, Runtime.armedSound_rate hk hm]
    exact ⟨hvalid, hspared, hshadow, hremaining, hlapse, hallowance, Nat.le_sub_one_of_lt hlast,
      Nat.le_trans (Nat.sub_le _ _) hwindow, hexcess, htripped, hnone⟩
  · have hone : rt.windowLeft = 1 := by omega
    have hpos := d.window_pos hvalid ((Descriptor.isRate_iff d).mpr ⟨hk, hm⟩)
    rw [Entry.ticked_rate_opens rfl rfl hk hm hone, Entry.armed_sound, Runtime.armedSound_rate hk hm]
    exact ⟨hvalid, hspared, hshadow, hremaining, hlapse, Nat.le_refl _, hpos, Nat.le_refl _, Nat.zero_le _, fun _ => rfl,
      fun _ => rfl⟩

end Counts

theorem Entry.judge_sound (h : e.sound = true) (addr : Addr) (op : BeatOp) : (e.judge addr op).entry.sound = true := by
  rcases e.judge_cases addr op with hj | ⟨d, hd, hs, hj | ⟨hk, ⟨hm, hj⟩ | ⟨hm, hj⟩⟩⟩ <;> rw [hj]
  · exact h
  · rcases judgeCondition_cases d e op with hc | ⟨-, hc⟩ <;> rw [hc] <;> exact h
  all_goals rw [Entry.eq_mk hd hs] at h ⊢
  · exact judgeTotal_sound h hk hm
  · exact judgeRate_sound h hk hm

/-- An entry after a completion: itself, an ARMED shadow-bearing one with another shadow, or a DEADLINE one that follows the
beat in MONITORING. -/
theorem Entry.completed_cases (e : Entry) (mode : PartMode) (addr : Addr) (op : BeatOp) (data : Word) :
    e.completed mode addr op data = e ∨
      (e.shadowValid = true ∧ ∃ v, e.completed mode addr op data = { e with rt := { e.rt with shadow := v } }) ∨
      mode = .monitoring ∧ e.followsBeat addr op.dir = true ∧ e.completed mode addr op data = e.followed := by
  unfold Entry.completed
  split
  · split
    · next hw => exact .inr (.inl ⟨(Bool.and_eq_true_iff.mp hw).1, _, rfl⟩)
    · split
      · next hf => exact .inr (.inr ⟨of_decide_eq_true (Bool.and_eq_true_iff.mp hf).1, (Bool.and_eq_true_iff.mp hf).2, rfl⟩)
      · exact .inl rfl
  · split
    · next hw =>
      obtain ⟨hword, -⟩ := Entry.diverges_iff.mp (Bool.and_eq_true_iff.mp hw).2
      exact .inr (.inl ⟨(Entry.shadowValid_iff e).mpr ⟨hword.1, hword.2.1⟩, _, rfl⟩)
    · split
      · next hf => exact .inr (.inr ⟨of_decide_eq_true (Bool.and_eq_true_iff.mp hf).1, (Bool.and_eq_true_iff.mp hf).2, rfl⟩)
      · exact .inl rfl

theorem Entry.followed_sound (h : e.sound = true) (hd : e.desc = some d) (hk : d.kind = .deadline) : e.followed.sound = true := by
  have hvalid := Entry.sound.valid h hd
  have hreload := d.reload_pos hvalid (by simp [hk])
  rw [Entry.followed_of_deadline hd hk, Entry.armed_sound, Runtime.armedSound_deadline hk]
  exact ⟨hvalid, hreload, Nat.le_refl _, fun _ => rfl, rfl⟩

theorem Entry.completed_sound (h : e.sound = true) (mode : PartMode) (addr : Addr) (op : BeatOp) (data : Word) :
    (e.completed mode addr op data).sound = true := by
  rcases e.completed_cases mode addr op data with hc | ⟨hv, v, hc⟩ | ⟨-, hf, hc⟩ <;> rw [hc]
  · exact h
  · obtain ⟨hb, hs⟩ := (Entry.shadowValid_iff e).mp hv
    obtain ⟨d, hd, hbears⟩ := Entry.exists_desc_of_bearing hb
    rw [Entry.eq_mk hd hs, Entry.armed_sound] at h ⊢
    exact ⟨h.1, (Runtime.armedSound_shadow hbears v).mpr h.2⟩
  · obtain ⟨d, hd, hk, -⟩ := Entry.followsBeat_iff.mp hf
    exact Entry.followed_sound h hd hk

theorem Entry.ticked_sound (h : e.sound = true) (now : TickCount) : (e.ticked now).sound = true := by
  by_cases hs : e.state = .armed
  · obtain ⟨d, hd⟩ := Entry.sound.exists_desc h (by simp [hs])
    cases hk : d.kind with
    | condition => rwa [Entry.ticked_of_uncounted hd (.inl hk)]
    | deadline =>
      rw [Entry.eq_mk hd hs] at h ⊢
      exact ticked_deadline_sound h hk now
    | count =>
      cases hm : d.countMode with
      | total => rwa [Entry.ticked_of_uncounted hd (.inr ⟨hk, hm⟩)]
      | rate =>
        rw [Entry.eq_mk hd hs] at h ⊢
        exact ticked_rate_sound h hk hm now
  · rwa [Entry.ticked_of_not_armed hs]

theorem Entry.suspended_sound (h : e.sound = true) : e.suspended.sound = true := by
  unfold Entry.suspended
  split
  · next hb =>
    split
    · exact Entry.restarted_waiting_sound h hb rfl
    · next hs => exact Entry.waiting_sound h (by simp [hs, EntryState.waiting]) rfl
    all_goals exact h
  · exact h

end Sound

end Sys2Proof.Machine
end

section
/-! The table as a beat and the fetch list see it: verdicts, completions and ticks move an entry at most between ARMED and
LAPSED, and so change neither what covers a beat nor what waits for a shadow. -/

namespace Sys2Proof.Machine

/-! ## Ascending lists -/

/-- Ascending lists with the same members are the same. -/
theorem eq_of_ascending {l k : List Nat} (hl : l.Pairwise (· < ·)) (hk : k.Pairwise (· < ·)) (h : ∀ i, i ∈ l ↔ i ∈ k) : l = k :=
  List.Perm.eq_of_pairwise (fun _ _ _ _ hij hji => absurd hij (Nat.lt_asymm hji)) hl hk
    ((List.perm_ext_iff_of_nodup (hl.imp Nat.ne_of_lt) (hk.imp Nat.ne_of_lt)).mpr h)

theorem indexesOf_congr {p q : Entry → Bool} {es fs : List Entry} (hlength : es.length = fs.length)
    (h : ∀ i, p (entryAt es i) = q (entryAt fs i)) : indexesOf p es = indexesOf q fs := by
  refine eq_of_ascending (indexesOf_sorted p es) (indexesOf_sorted q fs) fun i => ?_
  rw [mem_indexesOf, mem_indexesOf, hlength, h i]

/-! ## What covers a beat (R30) -/

/-- Entries that cover the same beats, and block the same beats. -/
structure SameCoverage (es fs : List Entry) : Prop where
  length : es.length = fs.length
  covers : ∀ i addr dir, (entryAt es i).covers addr dir = (entryAt fs i).covers addr dir
  blocks : ∀ i addr dir, (entryAt es i).blocks addr dir = (entryAt fs i).blocks addr dir

namespace SameCoverage
variable {es fs : List Entry}

theorem coveringOf (h : SameCoverage es fs) (addr : Addr) (dir : Direction) : coveringOf es addr dir = coveringOf fs addr dir :=
  indexesOf_congr h.length fun i => h.covers i addr dir

theorem blockingOf (h : SameCoverage es fs) (addr : Addr) (dir : Direction) : blockingOf es addr dir = blockingOf fs addr dir :=
  indexesOf_congr h.length fun i => h.blocks i addr dir

theorem of_states (hlength : es.length = fs.length) (hdesc : ∀ i, (entryAt es i).desc = (entryAt fs i).desc)
    (hwatching : ∀ i, (entryAt es i).state.watching = (entryAt fs i).state.watching)
    (hwaiting : ∀ i, (entryAt es i).state.waiting = (entryAt fs i).state.waiting) : SameCoverage es fs := by
  have hcovers : ∀ i addr dir, (entryAt es i).covers addr dir = (entryAt fs i).covers addr dir := fun i addr dir => by
    rw [Entry.covers, Entry.covers, hdesc i, hwatching i]
  exact ⟨hlength, hcovers, fun i addr dir => by rw [Entry.blocks, Entry.blocks, hcovers, hwaiting i]⟩

end SameCoverage

theorem mem_coveringOf {es : List Entry} {addr : Addr} {dir : Direction} {i : Nat} :
    i ∈ coveringOf es addr dir ↔ i < es.length ∧ (entryAt es i).covers addr dir = true := mem_indexesOf

theorem EntryState.waiting_iff {st : EntryState} : st.waiting = true ↔ st = .pending ∨ st = .fetching := by
  cases st <;> simp [EntryState.waiting]

theorem mem_blockingOf {es : List Entry} {addr : Addr} {dir : Direction} {i : Nat} :
    i ∈ blockingOf es addr dir ↔ i < es.length ∧ (entryAt es i).covers addr dir = true ∧
      ((entryAt es i).state = .pending ∨ (entryAt es i).state = .fetching) := by
  rw [blockingOf, mem_indexesOf, Entry.blocks, Bool.and_eq_true, EntryState.waiting_iff, and_comm (b := _ = true)]

theorem blockingOf_sorted (es : List Entry) (addr : Addr) (dir : Direction) : (blockingOf es addr dir).Pairwise (· < ·) :=
  indexesOf_sorted _ _

theorem blockingOf_nodup (es : List Entry) (addr : Addr) (dir : Direction) : (blockingOf es addr dir).Nodup :=
  indexesOf_nodup _ _

/-- With no entry waiting no beat is blocked. -/
theorem blockingOf_eq_nil {es : List Entry} (h : ∀ e ∈ es, e.state.waiting = false) (addr : Addr) (dir : Direction) :
    blockingOf es addr dir = [] :=
  indexesOf_eq_nil fun e he => by rw [Entry.blocks, h e he, Bool.false_and]

/-! ## States up to a lapse -/

/-- The state, ARMED and LAPSED being one. -/
def EntryState.role : EntryState → EntryState
  | .lapsed => .armed
  | st => st

section Role
variable {a b : EntryState}

theorem EntryState.watching_of_role (h : a.role = b.role) : a.watching = b.watching := by
  cases a <;> cases b <;> simp_all [EntryState.role, EntryState.watching]

theorem EntryState.waiting_of_role (h : a.role = b.role) : a.waiting = b.waiting := by
  cases a <;> cases b <;> simp_all [EntryState.role, EntryState.waiting]

theorem EntryState.fetching_of_role (h : a.role = b.role) : a = .fetching ↔ b = .fetching := by
  cases a <;> cases b <;> simp_all [EntryState.role]

theorem EntryState.pending_of_role (h : a.role = b.role) : a = .pending ↔ b = .pending := by
  cases a <;> cases b <;> simp_all [EntryState.role]

end Role

/-- Tables whose entries differ at most in runtime fields and in a lapse. -/
structure SameRoles (es fs : List Entry) : Prop where
  length : es.length = fs.length
  desc : ∀ i, (entryAt es i).desc = (entryAt fs i).desc
  role : ∀ i, (entryAt es i).state.role = (entryAt fs i).state.role

theorem SameRoles.coverage {es fs : List Entry} (h : SameRoles es fs) : SameCoverage es fs :=
  .of_states h.length h.desc (fun i => EntryState.watching_of_role (h.role i)) fun i => EntryState.waiting_of_role (h.role i)

theorem sameRoles_mapFrom {f : Entry → Entry} {es : List Entry}
    (h : ∀ e ∈ es, (f e).desc = e.desc ∧ (f e).state.role = e.state.role) :
    SameRoles es (mapFrom (fun _ e => f e) 0 es) := by
  have hentry : ∀ i, (entryAt (mapFrom (fun _ e => f e) 0 es) i).desc = (entryAt es i).desc ∧
      (entryAt (mapFrom (fun _ e => f e) 0 es) i).state.role = (entryAt es i).state.role := by
    intro i
    by_cases hi : i < es.length
    · rw [entryAt_mapFrom _ _ _ hi]
      exact h _ (entryAt_eq_getElem hi ▸ List.getElem_mem hi)
    · rw [entryAt_eq_empty (Nat.le_of_not_lt hi), entryAt_eq_empty (by simpa using hi)]
      exact ⟨rfl, rfl⟩
  exact ⟨(mapFrom_length _ _ _).symm, fun i => (hentry i).1.symm, fun i => (hentry i).2.symm⟩

theorem judged_sameRoles (es : List Entry) (addr : Addr) (op : BeatOp) : SameRoles es (judged es addr op) := by
  refine sameRoles_mapFrom (f := fun e => (e.judge addr op).entry) fun e _ => ?_
  obtain ⟨hstate, hdesc, -⟩ := e.judge_keeps addr op
  exact ⟨hdesc, congrArg _ hstate⟩

theorem ticked_sameRoles (es : List Entry) (now : TickCount) : SameRoles es (mapFrom (fun _ e => e.ticked now) 0 es) := by
  refine sameRoles_mapFrom (f := fun e => e.ticked now) fun e _ => ?_
  obtain ⟨hdesc, -, hstate | ⟨harmed, hlapsed⟩⟩ := e.ticked_keeps now
  · exact ⟨hdesc, congrArg _ hstate⟩
  · exact ⟨hdesc, by rw [harmed, hlapsed]; rfl⟩

/-- A completion moves an entry at most from LAPSED to ARMED. -/
theorem Entry.completed_role {e : Entry} (h : e.sound = true) (mode : PartMode) (addr : Addr) (op : BeatOp) (data : Word) :
    (e.completed mode addr op data).state.role = e.state.role := by
  rcases e.completed_cases mode addr op data with hc | ⟨-, v, hc⟩ | ⟨-, hf, hc⟩ <;> rw [hc]
  obtain ⟨d, hd, hk, hcovers⟩ := Entry.followsBeat_iff.mp hf
  rcases Entry.state_of_deadline h hd hk hcovers with hs | hs <;> rw [hs] <;> rfl

theorem completed_sameRoles {es : List Entry} (h : ∀ e ∈ es, e.sound = true) (mode : PartMode) (addr : Addr) (op : BeatOp)
    (data : Word) : SameRoles es (mapFrom (fun _ e => e.completed mode addr op data) 0 es) :=
  sameRoles_mapFrom (f := fun e => e.completed mode addr op data) fun e he =>
    ⟨(e.completed_keeps mode addr op data).1, Entry.completed_role (h e he) mode addr op data⟩

/-! ## The table (R1, R24) -/

/-- 48 sound entries. -/
def TableSound (es : List Entry) : Prop := es.length = entryCount ∧ ∀ e ∈ es, e.sound = true

theorem State.tableSound_iff (s : State) : s.tableSound ↔ TableSound s.entries := Iff.rfl

theorem TableSound.entry {es : List Entry} (h : TableSound es) (i : Nat) : (entryAt es i).sound = true := by
  rcases entryAt_mem_or_empty es i with hi | hi
  · exact h.2 _ hi
  · rw [hi]; rfl

/-- The entries of a table index by index; outside it they are EMPTY. -/
theorem forall_mem_iff_entryAt {es : List Entry} {p : Entry → Prop} (h : p Entry.empty) :
    (∀ e ∈ es, p e) ↔ ∀ i, p (entryAt es i) := by
  refine ⟨fun hall i => ?_, fun hall e he => ?_⟩
  · rcases entryAt_mem_or_empty es i with hi | hi
    · exact hall _ hi
    · rw [hi]; exact h
  · obtain ⟨i, hi, rfl⟩ := List.getElem_of_mem he
    have := hall i
    rwa [entryAt_eq_getElem hi] at this

theorem TableSound.mapFrom {es : List Entry} {f : Entry → Entry} (h : TableSound es)
    (hf : ∀ e, e.sound = true → (f e).sound = true) : TableSound (mapFrom (fun _ e => f e) 0 es) :=
  ⟨(mapFrom_length _ _ _).trans h.1, forall_mapFrom h.2 fun _ e => hf e⟩

theorem TableSound.set {es : List Entry} (h : TableSound es) (i : Nat) {e : Entry} (he : e.sound = true) :
    TableSound (es.set i e) := by
  refine ⟨(List.length_set ..).trans h.1, fun f hf => ?_⟩
  rcases List.mem_or_eq_of_mem_set hf with hf | rfl
  · exact h.2 f hf
  · exact he

theorem TableSound.judged {es : List Entry} (h : TableSound es) (addr : Addr) (op : BeatOp) : TableSound (judged es addr op) :=
  h.mapFrom (f := fun e => (e.judge addr op).entry) fun _ he => Entry.judge_sound he addr op

theorem resetEntries_sound : TableSound resetEntries :=
  ⟨resetEntries_length, fun e he => by rw [mem_resetEntries he]; rfl⟩

/-- In this mode the table may hold these entries: in SUSPENDED no shadow-bearing one is ARMED or FETCHING (R24). -/
def SuspensionSound (mode : PartMode) (es : List Entry) : Prop :=
  mode = .suspended → ∀ e ∈ es, e.shadowBearing = true → e.state ≠ .armed ∧ e.state ≠ .fetching

theorem State.suspensionSound_iff (s : State) : s.suspensionSound ↔ SuspensionSound s.mode s.entries := Iff.rfl

theorem suspensionSound_monitoring (es : List Entry) : SuspensionSound .monitoring es := nofun

theorem SuspensionSound.entry {mode : PartMode} {es : List Entry} (h : SuspensionSound mode es) (hm : mode = .suspended) (i : Nat)
    (hb : (entryAt es i).shadowBearing = true) : (entryAt es i).state ≠ .armed ∧ (entryAt es i).state ≠ .fetching :=
  (forall_mem_iff_entryAt (p := fun e => e.shadowBearing = true → e.state ≠ .armed ∧ e.state ≠ .fetching)
    (fun h => nomatch h)).mp (h hm) i hb

/-- Table 1-4: LAPSED is a state of DEADLINE entries alone. -/
theorem Entry.sound.not_lapsed {e : Entry} (h : e.sound = true) (hb : e.shadowBearing = true) : e.state ≠ .lapsed := by
  intro hs
  obtain ⟨d, hd, hbears⟩ := Entry.exists_desc_of_bearing hb
  have hkind : d.kind = .deadline := by
    simp only [Entry.sound, hd, hs, Bool.and_eq_true] at h
    exact (Descriptor.isDeadline_iff d).mp h.2.1
  simp [Descriptor.shadowBearing, hkind] at hbears

theorem SuspensionSound.sameRoles {mode : PartMode} {es fs : List Entry} (h : SuspensionSound mode es) (hes : TableSound es)
    (hr : SameRoles es fs) : SuspensionSound mode fs := by
  intro hm
  refine (forall_mem_iff_entryAt (p := fun e => e.shadowBearing = true → e.state ≠ .armed ∧ e.state ≠ .fetching)
    (fun h => nomatch h)).mpr fun i hb => ?_
  have hb' : (entryAt es i).shadowBearing = true := (Entry.shadowBearing_congr (hr.desc i)).trans hb
  obtain ⟨harmed, hfetching⟩ := h.entry hm i hb'
  refine ⟨fun hs => ?_, fun hs => hfetching ((EntryState.fetching_of_role (hr.role i)).mpr hs)⟩
  have hrole := hr.role i
  cases hst : (entryAt es i).state <;> simp [hst, hs, EntryState.role] at hrole
  · exact harmed hst
  · exact Entry.sound.not_lapsed (hes.entry i) hb' hst

end Sys2Proof.Machine
end

section
/-! The fetch list, the bus and the transaction as sound parts of a state (R10, R55 to R62, R77 to R85), and what each
operation on the list keeps. -/

namespace Sys2Proof.Machine

/-! ## The fetch list (R10, R59 to R62) -/

/-- The list is sound beside this table; `onBus` says whether a fetch of the list is on the bus. -/
structure FetchListSound (list : List FetchRequest) (es : List Entry) (onBus : Bool) : Prop where
  capacity : list.length ≤ listCapacity
  entries : ∀ r ∈ list, r.entry < entryCount
  requests : ∀ i < entryCount, (requestsOf list i).length = if (entryAt es i).state = .fetching then 1 else 0
  addr : ∀ r ∈ list, r.orphaned = false → r.addr = (entryAt es r.entry).base
  tail : ∀ r ∈ list.tail, r.status = .queued
  kept : ∀ r ∈ list, r.status = .queued → r.orphaned = false
  head : (list.head?.any fun r => decide (r.status = .issued)) = onBus

/-- A fetch of the list is on the bus. -/
def MemoryPort.fetches (p : MemoryPort) : Bool := p.bus.any fun a => decide (a.owner = .fetch)

theorem State.fetchSound_iff (s : State) : s.fetchSound ↔ FetchListSound s.port.list s.entries s.port.fetches :=
  ⟨fun ⟨h1, h2, h3, h4, h5, h6, h7⟩ => ⟨h1, h2, h3, h4, h5, h6, h7⟩, fun ⟨h1, h2, h3, h4, h5, h6, h7⟩ => ⟨h1, h2, h3, h4, h5, h6, h7⟩⟩

theorem requestsOf_append (l k : List FetchRequest) (i : Nat) : requestsOf (l ++ k) i = requestsOf l i ++ requestsOf k i :=
  List.filter_append _ _

theorem mem_requestsOf {list : List FetchRequest} {i : Nat} {r : FetchRequest} :
    r ∈ requestsOf list i ↔ r ∈ list ∧ r.entry = i ∧ r.orphaned = false := by
  simp [requestsOf]

theorem requestsOf_cons_of_orphaned {r : FetchRequest} (h : r.orphaned = true) (rest : List FetchRequest) (i : Nat) :
    requestsOf (r :: rest) i = requestsOf rest i := by
  simp [requestsOf, h]

theorem requestsOf_cons_of_ne {r : FetchRequest} {i : Nat} (h : r.entry ≠ i) (rest : List FetchRequest) :
    requestsOf (r :: rest) i = requestsOf rest i := by
  simp [requestsOf, h]

theorem requestsOf_cons_self {r : FetchRequest} (h : r.orphaned = false) (rest : List FetchRequest) :
    requestsOf (r :: rest) r.entry = r :: requestsOf rest r.entry := by
  simp [requestsOf, h]

/-- The requests that entries of a list without repetition place: one for each of them. -/
theorem requestsOf_placed {is : List Nat} (h : is.Nodup) {f : Nat → FetchRequest}
    (hf : ∀ i, (f i).entry = i ∧ (f i).orphaned = false) (j : Nat) :
    (requestsOf (is.map f) j).length = if j ∈ is then 1 else 0 := by
  have hcount : (requestsOf (is.map f) j).length = is.count j := by
    rw [requestsOf, List.filter_map, List.length_map, ← List.countP_eq_length_filter, List.count]
    exact List.countP_congr fun i _ => by simp [hf i]
  rw [hcount]
  split
  · next hj => exact List.count_eq_one_of_mem h hj
  · next hj => exact List.count_eq_zero_of_not_mem hj

namespace FetchListSound
variable {list rest : List FetchRequest} {es fs : List Entry} {onBus : Bool} {r : FetchRequest} {i : Nat}

/-- An entry with a request that is not orphaned is FETCHING (R10). -/
theorem fetching (h : FetchListSound list es onBus) (hr : r ∈ list) (ho : r.orphaned = false) :
    (entryAt es r.entry).state = .fetching := by
  have hmem : r ∈ requestsOf list r.entry := mem_requestsOf.mpr ⟨hr, rfl, ho⟩
  have hlength := h.requests r.entry (h.entries r hr)
  by_contra hs
  rw [if_neg hs, List.length_eq_zero_iff] at hlength
  rw [hlength] at hmem
  cases hmem

/-- The list asks of the table for the FETCHING entries and the words they watch. -/
theorem congr (h : FetchListSound list es onBus)
    (hstate : ∀ i, (entryAt es i).state = .fetching ↔ (entryAt fs i).state = .fetching)
    (hdesc : ∀ i, (entryAt es i).state = .fetching → (entryAt es i).desc = (entryAt fs i).desc) : FetchListSound list fs onBus :=
  { h with
    requests := fun i hi => by rw [h.requests i hi]; exact if_congr (hstate i) rfl rfl
    addr := fun r hr ho => (h.addr r hr ho).trans (Entry.base_congr (hdesc r.entry (h.fetching hr ho))) }

theorem sameRoles (h : FetchListSound list es onBus) (hr : SameRoles es fs) : FetchListSound list fs onBus :=
  h.congr (fun i => EntryState.fetching_of_role (hr.role i)) fun i _ => hr.desc i

/-- While no fetch of the list is on the bus every request is QUEUED. -/
theorem queued (h : FetchListSound list es false) : ∀ r ∈ list, r.status = .queued := by
  intro r hr
  cases list with
  | nil => cases hr
  | cons q rest =>
    rcases List.mem_cons.mp hr with rfl | hr
    · have hhead := h.head
      cases hs : r.status
      · rfl
      · simp [hs] at hhead
    · exact h.tail r hr

/-- While a fetch of the list is on the bus the head is its ISSUED request. -/
theorem exists_issued (h : FetchListSound list es true) : ∃ r rest, list = r :: rest ∧ r.status = .issued := by
  have hhead := h.head
  cases list with
  | nil => cases hhead
  | cons r rest => exact ⟨r, rest, rfl, by simpa using hhead⟩

theorem not_pair (h : FetchListSound list es onBus) (hi : i < entryCount) : (requestsOf list i).length ≤ 1 := by
  rw [h.requests i hi]
  split <;> omega

/-- With the list empty no entry is FETCHING. -/
theorem not_fetching_of_nil (h : FetchListSound [] es onBus) (hes : es.length = entryCount) (i : Nat) :
    (entryAt es i).state ≠ .fetching := by
  by_cases hi : i < entryCount
  · intro hs
    have hlength := h.requests i hi
    rw [if_pos hs] at hlength
    cases hlength
  · rw [entryAt_eq_empty (by omega)]
    exact nofun

theorem of_nil (h : ∀ i, (entryAt es i).state ≠ .fetching) : FetchListSound [] es false :=
  ⟨Nat.zero_le _, nofun, fun i _ => (if_neg (h i)).symm, nofun, nofun, nofun, rfl⟩

/-! ### Promotion -/

theorem issuedOf_eq (h : FetchListSound list es onBus) : issuedOf list = if onBus then list.take 1 else [] := by
  cases onBus with
  | false => exact issuedOf_of_queued h.queued
  | true =>
    obtain ⟨r, rest, rfl, hr⟩ := h.exists_issued
    have hrest : issuedOf rest = [] := issuedOf_of_queued h.tail
    simpa [issuedOf, hr] using hrest

theorem promoted_head (h : FetchListSound list es true) (blocking : List Nat) :
    (promoted blocking list).head? = list.head? := by
  rw [promoted_eq, h.issuedOf_eq]
  obtain ⟨r, rest, rfl, -⟩ := h.exists_issued
  rfl

theorem promoted (h : FetchListSound list es onBus) {blocking : List Nat} (hn : blocking.Nodup) :
    FetchListSound (promoted blocking list) es onBus := by
  have hperm := promoted_perm blocking hn list
  have hqueued : ∀ r ∈ groupOf blocking list ++ othersOf blocking list, r.status = .queued := by
    intro r hr
    rcases List.mem_append.mp hr with hr | hr
    · exact groupOf_queued _ _ r hr
    · exact othersOf_queued _ _ r hr
  refine ⟨hperm.length_eq ▸ h.capacity, fun r hr => h.entries r (hperm.mem_iff.mp hr), fun i hi => ?_,
    fun r hr => h.addr r (hperm.mem_iff.mp hr), ?_, fun r hr => h.kept r (hperm.mem_iff.mp hr), ?_⟩
  · rw [← h.requests i hi]
    exact (hperm.filter _).length_eq
  · rw [promoted_eq, List.append_assoc, h.issuedOf_eq]
    intro r hr
    cases onBus with
    | false => exact hqueued r (List.mem_of_mem_tail hr)
    | true =>
      obtain ⟨q, rest, rfl, -⟩ := h.exists_issued
      exact hqueued r hr
  · cases onBus with
    | true => rw [h.promoted_head]; exact h.head
    | false =>
      rw [promoted_eq, List.append_assoc, h.issuedOf_eq]
      cases hl : groupOf blocking list ++ othersOf blocking list with
      | nil => rfl
      | cons q rest =>
        have hq := hqueued q (by rw [hl]; exact List.mem_cons_self)
        simp [hq]

/-! ### Requests that join -/

/-- Entries that become FETCHING place one request each at the tail (R10). -/
theorem place (h : FetchListSound list es onBus) {is : List Nat} (hn : is.Nodup) (hroom : list.length + is.length ≤ listCapacity)
    (his : ∀ i ∈ is, i < entryCount ∧ (entryAt es i).state ≠ .fetching)
    (hfs : ∀ i, ((entryAt fs i).state = .fetching ↔ i ∈ is ∨ (entryAt es i).state = .fetching) ∧
      (entryAt fs i).desc = (entryAt es i).desc) :
    FetchListSound (list ++ is.map fun i => (entryAt es i).request i) fs onBus := by
  have hplaced : ∀ r ∈ is.map (fun i => (entryAt es i).request i), ∃ i ∈ is, r = (entryAt es i).request i := fun r hr => by
    obtain ⟨i, hi, rfl⟩ := List.mem_map.mp hr
    exact ⟨i, hi, rfl⟩
  refine ⟨by simpa using hroom, fun r hr => ?_, fun i hi => ?_, fun r hr ho => ?_, fun r hr => ?_, fun r hr hq => ?_, ?_⟩
  · rcases List.mem_append.mp hr with hr | hr
    · exact h.entries r hr
    · obtain ⟨i, hi, rfl⟩ := hplaced r hr
      exact (his i hi).1
  · have hcount := requestsOf_placed hn (f := fun i => (entryAt es i).request i) (fun i => ⟨rfl, rfl⟩) i
    rw [requestsOf_append, List.length_append, h.requests i hi, hcount, if_congr (hfs i).1 rfl rfl]
    by_cases him : i ∈ is
    · simp [him, (his i him).2]
    · simp [him]
  · rw [Entry.base_congr (hfs r.entry).2]
    rcases List.mem_append.mp hr with hr | hr
    · exact h.addr r hr ho
    · obtain ⟨i, -, rfl⟩ := hplaced r hr
      rfl
  · cases list with
    | nil =>
      obtain ⟨i, -, rfl⟩ := hplaced r (List.mem_of_mem_tail hr)
      rfl
    | cons q rest =>
      rcases List.mem_append.mp hr with hr | hr
      · exact h.tail r hr
      · obtain ⟨i, -, rfl⟩ := hplaced r hr
        rfl
  · rcases List.mem_append.mp hr with hr | hr
    · exact h.kept r hr hq
    · obtain ⟨i, -, rfl⟩ := hplaced r hr
      rfl
  · cases list with
    | nil =>
      rw [← h.head]
      cases is <;> rfl
    | cons q rest => exact h.head

/-! ### Requests that leave -/

/-- The head leaves the list as its access ends (R64, R65). -/
theorem drop_head (h : FetchListSound (r :: rest) es onBus)
    (hstate : ∀ i, (entryAt fs i).state = .fetching ↔ (entryAt es i).state = .fetching ∧ (r.orphaned = false → i ≠ r.entry))
    (hdesc : ∀ i, (entryAt fs i).desc = (entryAt es i).desc) : FetchListSound rest fs false := by
  refine ⟨Nat.le_of_succ_le h.capacity, fun q hq => h.entries q (List.mem_cons_of_mem _ hq), fun i hi => ?_,
    fun q hq ho => (h.addr q (List.mem_cons_of_mem _ hq) ho).trans (Entry.base_congr (hdesc q.entry).symm),
    fun q hq => h.tail q (List.mem_of_mem_tail hq), fun q hq => h.kept q (List.mem_cons_of_mem _ hq), ?_⟩
  · have hrequests := h.requests i hi
    rw [if_congr (hstate i) rfl rfl]
    cases ho : r.orphaned with
    | true =>
      rw [requestsOf_cons_of_orphaned ho] at hrequests
      simpa [ho] using hrequests
    | false =>
      by_cases hir : i = r.entry
      · subst hir
        rw [requestsOf_cons_self ho, List.length_cons] at hrequests
        rw [if_neg (by simp)]
        split at hrequests <;> omega
      · rw [requestsOf_cons_of_ne (Ne.symm hir)] at hrequests
        simpa [ho, hir] using hrequests
  · cases rest with
    | nil => rfl
    | cons q rest =>
      have hq : q.status = .queued := h.tail q List.mem_cons_self
      simp [hq]

/-- The head is issued (R63). -/
theorem issue (h : FetchListSound (r :: rest) es false) : FetchListSound ({ r with status := .issued } :: rest) es true := by
  have ho : r.orphaned = false := h.kept r List.mem_cons_self (h.queued r List.mem_cons_self)
  refine ⟨h.capacity, fun q hq => ?_, fun i hi => ?_, fun q hq => ?_, h.tail, fun q hq hqueued => ?_, by simp⟩
  · rcases List.mem_cons.mp hq with rfl | hq
    · exact h.entries r List.mem_cons_self
    · exact h.entries q (List.mem_cons_of_mem _ hq)
  · rw [← h.requests i hi]
    by_cases hir : r.entry = i
    · subst hir
      have hissued := congrArg List.length (requestsOf_cons_self (r := { r with status := .issued }) ho rest)
      exact hissued.trans (congrArg List.length (requestsOf_cons_self ho rest)).symm
    · rw [requestsOf_cons_of_ne hir]
      have hissued := requestsOf_cons_of_ne (r := { r with status := .issued }) hir rest
      exact congrArg List.length hissued
  · rcases List.mem_cons.mp hq with rfl | hq
    · exact h.addr r List.mem_cons_self
    · exact h.addr q (List.mem_cons_of_mem _ hq)
  · rcases List.mem_cons.mp hq with rfl | hq
    · cases hqueued
    · exact h.kept q (List.mem_cons_of_mem _ hq) hqueued

/-- A request stands in the list once at most while it is QUEUED. -/
theorem not_mem_rest (h : FetchListSound (r :: rest) es onBus) (hq : r.status = .queued) : r ∉ rest := by
  intro hmem
  have ho : r.orphaned = false := h.kept r List.mem_cons_self hq
  have hpair := h.not_pair (h.entries r List.mem_cons_self)
  rw [requestsOf_cons_self ho, List.length_cons] at hpair
  have hpos : 0 < (requestsOf rest r.entry).length := List.length_pos_of_mem (mem_requestsOf.mpr ⟨hmem, rfl, ho⟩)
  omega

end FetchListSound

/-! ### Requests given up (R24, R62) -/

theorem mem_giveUp {list : List FetchRequest} {i : Nat} {r : FetchRequest} :
    r ∈ giveUp i list ↔
      ∃ q ∈ list, ¬(q.entry = i ∧ q.status = .queued) ∧ r = if q.entry = i then { q with orphaned := true } else q := by
  simp only [giveUp, List.mem_map, List.mem_filter, and_assoc]
  refine exists_congr fun q => and_congr_right fun _ => and_congr ?_ eq_comm
  rw [Bool.not_eq_true', ← Bool.not_eq_true, Bool.and_eq_true, decide_eq_true_eq, decide_eq_true_eq]

theorem giveUp_status {list : List FetchRequest} {i : Nat} {r : FetchRequest} (h : r ∈ giveUp i list) :
    ∃ q ∈ list, q.status = r.status ∧ q.entry = r.entry := by
  obtain ⟨q, hq, -, rfl⟩ := mem_giveUp.mp h
  refine ⟨q, hq, ?_⟩
  split <;> exact ⟨rfl, rfl⟩

theorem giveUp_orphaned {list : List FetchRequest} {i : Nat} {r : FetchRequest} (h : r ∈ giveUp i list) (he : r.entry = i) :
    r.orphaned = true := by
  obtain ⟨q, -, -, rfl⟩ := mem_giveUp.mp h
  split at he
  · next hi => rw [if_pos hi]
  · next hi => exact absurd he hi

theorem giveUp_cons (i : Nat) (r : FetchRequest) (rest : List FetchRequest) :
    giveUp i (r :: rest) =
      if r.entry = i ∧ r.status = .queued then giveUp i rest
      else (if r.entry = i then { r with orphaned := true } else r) :: giveUp i rest := by
  by_cases hi : r.entry = i <;> by_cases hq : r.status = .queued <;> simp [giveUp, hi, hq]

/-- The requests of other entries stay. -/
theorem requestsOf_giveUp {list : List FetchRequest} {i j : Nat} (h : j ≠ i) :
    requestsOf (giveUp i list) j = requestsOf list j := by
  induction list with
  | nil => rfl
  | cons r rest ih =>
    rw [giveUp_cons]
    by_cases hi : r.entry = i
    · have hj : r.entry ≠ j := fun hj => h (hj.symm.trans hi)
      rw [requestsOf_cons_of_ne hj, ← ih]
      split
      · rfl
      · exact requestsOf_cons_of_ne (r := { r with orphaned := true }) hj _
    · rw [if_neg (fun hc => hi hc.1), if_neg hi]
      simp only [requestsOf, List.filter_cons] at ih ⊢
      rw [ih]

/-- Of the entry itself none is left that is not orphaned. -/
theorem requestsOf_giveUp_self (list : List FetchRequest) (i : Nat) : requestsOf (giveUp i list) i = [] := by
  refine List.eq_nil_iff_forall_not_mem.mpr fun r hr => ?_
  obtain ⟨hmem, he, ho⟩ := mem_requestsOf.mp hr
  rw [giveUp_orphaned hmem he] at ho
  cases ho

theorem giveUp_tail {list : List FetchRequest} {i : Nat} (h : ∀ r ∈ list.tail, r.status = .queued) :
    ∀ r ∈ (giveUp i list).tail, r.status = .queued := by
  cases list with
  | nil => exact fun r hr => nomatch hr
  | cons q rest =>
    have hrest : ∀ r ∈ giveUp i rest, r.status = .queued := fun r hr => by
      obtain ⟨p, hp, hs, -⟩ := giveUp_status hr
      exact hs ▸ h p hp
    intro r hr
    rw [giveUp_cons] at hr
    split at hr
    · exact hrest r (List.mem_of_mem_tail hr)
    · exact hrest r hr

namespace FetchListSound
variable {list : List FetchRequest} {es fs : List Entry} {onBus : Bool} {i : Nat}

theorem giveUp_head (h : FetchListSound list es onBus) (i : Nat) :
    ((giveUp i list).head?.any fun r => decide (r.status = .issued)) = onBus := by
  cases onBus with
  | false =>
    cases hl : giveUp i list with
    | nil => rfl
    | cons r rest =>
      obtain ⟨q, hq, hs, -⟩ := giveUp_status (hl ▸ List.mem_cons_self : r ∈ giveUp i list)
      simp [← hs, h.queued q hq]
  | true =>
    obtain ⟨r, rest, rfl, hr⟩ := h.exists_issued
    rw [giveUp_cons, if_neg (by simp [hr])]
    split <;> simp [hr]

/-- An entry that gives up its fetch and is not FETCHING any more leaves the list sound. -/
theorem giveUp (h : FetchListSound list es onBus)
    (hstate : ∀ j, (entryAt fs j).state = .fetching ↔ (entryAt es j).state = .fetching ∧ j ≠ i)
    (hdesc : ∀ j, j ≠ i → (entryAt fs j).desc = (entryAt es j).desc) : FetchListSound (giveUp i list) fs onBus := by
  refine ⟨?_, fun r hr => ?_, fun j hj => ?_, fun r hr ho => ?_, giveUp_tail h.tail, fun r hr hq => ?_, h.giveUp_head i⟩
  · rw [Machine.giveUp, List.length_map]
    exact Nat.le_trans (List.length_filter_le _ _) h.capacity
  · obtain ⟨q, hq, -, he⟩ := giveUp_status hr
    exact he ▸ h.entries q hq
  · rw [if_congr (hstate j) rfl rfl]
    by_cases hji : j = i
    · subst hji
      simp [requestsOf_giveUp_self]
    · rw [requestsOf_giveUp hji, h.requests j hj]
      simp [hji]
  · have hne : r.entry ≠ i := fun he => by
      rw [giveUp_orphaned hr he] at ho
      cases ho
    rw [Entry.base_congr (hdesc _ hne)]
    obtain ⟨q, hq, -, rfl⟩ := mem_giveUp.mp hr
    split at hne
    · next hi => exact absurd hi hne
    · next hi => rw [if_neg hi] at ho ⊢; exact h.addr q hq ho
  · obtain ⟨q, hmem, hkept, rfl⟩ := mem_giveUp.mp hr
    by_cases hi : q.entry = i
    · rw [if_pos hi] at hq
      exact absurd ⟨hi, hq⟩ hkept
    · rw [if_neg hi] at hq ⊢
      exact h.kept q hmem hq

/-- Where the entry is not FETCHING it has nothing to give up. -/
theorem giveUp_of_not_fetching (h : FetchListSound list es onBus) (hs : (entryAt es i).state ≠ .fetching) :
    Machine.giveUp i list = list := by
  have horphaned : ∀ r ∈ list, r.entry = i → r.orphaned = true := by
    rintro r hr rfl
    by_contra ho
    exact hs (h.fetching hr (by simpa using ho))
  rw [Machine.giveUp, List.filter_eq_self.mpr, List.map_congr_left, List.map_id]
  · intro r hr
    split
    · next he =>
      have ho := horphaned r hr he
      show ({ r with orphaned := true } : FetchRequest) = r
      rw [← ho]
    · rfl
  · intro r hr
    by_cases he : r.entry = i
    · by_cases hq : r.status = .queued
      · have hkept := h.kept r hr hq
        rw [horphaned r hr he] at hkept
        cases hkept
      · simp [hq]
    · simp [he]

/-- At SUSPEND the ISSUED request alone stays, orphaned (R24, R62). -/
theorem suspendedList (h : FetchListSound list es onBus) (hfs : ∀ i, (entryAt fs i).state ≠ .fetching) :
    FetchListSound (suspendedList list) fs onBus := by
  have hlist : Machine.suspendedList list = (if onBus then list.take 1 else []).map fun r => { r with orphaned := true } := by
    rw [← h.issuedOf_eq]
    rfl
  rw [hlist]
  cases onBus with
  | false => exact of_nil hfs
  | true =>
    obtain ⟨r, rest, rfl, hr⟩ := h.exists_issued
    refine ⟨by simp [listCapacity], fun q hq => ?_, fun i _ => ?_, fun q hq ho => ?_, (fun q hq => nomatch hq), fun q hq hqueued => ?_,
      by simp [hr]⟩
    · rw [List.mem_singleton.mp hq]
      exact h.entries r List.mem_cons_self
    · rw [if_neg (hfs i)]
      simp [requestsOf]
    · rw [List.mem_singleton.mp hq] at ho
      cases ho
    · rw [List.mem_singleton.mp hq] at hqueued ⊢
      exact absurd (hr.symm.trans hqueued) nofun

end FetchListSound

end Sys2Proof.Machine
end

section
/-! The access on the bus, the transaction, and the examination of the beat before the checker (R28 to R35). -/

namespace Sys2Proof.Machine

/-! ## The access on the bus (R55 to R57) -/

/-- The access on the bus, the transaction and the head of the fetch list fit together. -/
structure AccessSound (host : Option Transaction) (head : Option FetchRequest) (bus : Option Access) : Prop where
  wanted : ∀ a, bus = some a → a.owner = .host true →
    ∃ t ∈ host, t.held = none ∧ ∃ b ∈ t.current, b.state = .atMemory ∧ b.addr = a.addr ∧ b.op = a.op
  atMemory : ∀ t, host = some t → t.held = none → ∀ b, t.current = some b → b.state = .atMemory →
    bus.any (fun a => decide (a.owner = .host true)) = true
  fetch : ∀ a, bus = some a → a.owner = .fetch → ∃ r ∈ head, r.addr = a.addr
  reads : ∀ a, bus = some a → a.owner = .fetch ∨ a.owner = .strayFetch → a.op = .read
  period : ∀ a, bus = some a → 1 ≤ a.period ∧ a.period ≤ 1024

theorem State.accessSound_iff (s : State) : s.accessSound ↔ AccessSound s.host s.port.list.head? s.port.bus :=
  ⟨fun ⟨h1, h2, h3, h4, h5⟩ => ⟨h1, h2, h3, h4, h5⟩, fun ⟨h1, h2, h3, h4, h5⟩ => ⟨h1, h2, h3, h4, h5⟩⟩

/-- The transaction has no beat whose answer memory owes. -/
def AwaitsNoAnswer (host : Option Transaction) : Prop :=
  ∀ t, host = some t → t.held = none → ∀ b, t.current = some b → b.state ≠ .atMemory

theorem awaitsNoAnswer_none : AwaitsNoAnswer none := nofun

theorem awaitsNoAnswer_of_current {x : Transaction} {b : Beat} (hb : x.current = some b) (hs : b.state ≠ .atMemory) :
    AwaitsNoAnswer (some x) := by
  rintro t ht - c hc
  cases ht
  cases hb.symm.trans hc
  exact hs

theorem awaitsNoAnswer_of_idle {x : Transaction} (hb : x.current = none) : AwaitsNoAnswer (some x) := by
  rintro t ht - c hc
  cases ht
  cases hb.symm.trans hc

theorem awaitsNoAnswer_of_held {x : Transaction} {a : HostAnswer} (ha : x.held = some a) : AwaitsNoAnswer (some x) := by
  rintro t ht hheld
  cases ht
  cases ha.symm.trans hheld

namespace AccessSound
variable {host host' : Option Transaction} {head head' : Option FetchRequest} {bus : Option Access} {a : Access}

/-- While memory owes no answer to a beat no access on the bus has its answer wanted. -/
theorem not_wanted (h : AccessSound host head bus) (hn : AwaitsNoAnswer host) :
    ∀ a, bus = some a → a.owner ≠ .host true := by
  intro a ha how
  obtain ⟨t, ht, hheld, b, hb, hs, -⟩ := h.wanted a ha how
  exact hn t ht hheld b hb hs

theorem awaitsNoAnswer_of_free (h : AccessSound host head none) : AwaitsNoAnswer host :=
  fun t ht hheld b hb hs => nomatch h.atMemory t ht hheld b hb hs

/-- While memory owes no answer the transaction may become any other to which it owes none. -/
theorem of_host (h : AccessSound host head bus) (hn : AwaitsNoAnswer host) (hn' : AwaitsNoAnswer host') :
    AccessSound host' head bus :=
  { h with
    wanted := fun a ha how => absurd how (h.not_wanted hn a ha)
    atMemory := fun t ht hheld b hb hs => absurd hs (hn' t ht hheld b hb) }

/-- The head of the list may change while it names the address of the fetch on the bus. -/
theorem of_head_addr (h : AccessSound host head bus)
    (hf : ∀ a, bus = some a → a.owner = .fetch → head'.map FetchRequest.addr = head.map FetchRequest.addr) :
    AccessSound host head' bus :=
  { h with
    fetch := fun a ha how => by
      have hmap : head.map FetchRequest.addr = some a.addr := Option.map_eq_some_iff.mpr (h.fetch a ha how)
      exact Option.map_eq_some_iff.mp ((hf a ha how).trans hmap) }

theorem of_head (h : AccessSound host head bus) (hf : ∀ a, bus = some a → a.owner = .fetch → head' = head) :
    AccessSound host head' bus := h.of_head_addr fun a ha how => congrArg _ (hf a ha how)

theorem of_free (hn : AwaitsNoAnswer host) : AccessSound host head none :=
  ⟨nofun, fun t ht hheld b hb hs => absurd hs (hn t ht hheld b hb), nofun, nofun, nofun⟩

end AccessSound

theorem MemoryPort.fetches_iff (p : MemoryPort) : p.fetches = true ↔ ∃ a, p.bus = some a ∧ a.owner = .fetch := by
  simp [MemoryPort.fetches, Option.any_eq_true]

/-! ## The transaction (R77 to R85) -/

/-- A current beat between steps, or one that is presented to the checker. -/
def Beat.Presented (b : Beat) (course : Course) (held : Option HostAnswer) : Prop :=
  b.answerSound course held = true ∨ b.state = .taken ∧ course = .normal ∧ held = none

/-- The transaction is sound, its current beat in an allowed state. -/
structure Transaction.SoundWith (allowed : Beat → Course → Option HostAnswer → Prop) (x : Transaction) : Prop where
  answered : x.answered < x.len.beats
  idle : x.current = none → x.held = none
  beat : ∀ b, x.current = some b →
    b.index = x.answered + 1 ∧ b.addr = x.start + BitVec.ofNat 24 x.answered ∧ b.op.dir = x.dir ∧
      allowed b x.course x.held

/-- Sound between steps. -/
abbrev Transaction.Sound : Transaction → Prop :=
  Transaction.SoundWith fun b course held => b.answerSound course held = true

/-- Sound, or with its beat presented to the checker. -/
abbrev Transaction.Presented : Transaction → Prop := Transaction.SoundWith Beat.Presented

theorem Transaction.Sound.presented {x : Transaction} (h : x.Sound) : x.Presented :=
  ⟨h.answered, h.idle, fun b hb => (h.beat b hb).imp_right (And.imp_right (And.imp_right .inl))⟩

/-- A transaction with its current beat in another state, and with this answer held for it. -/
theorem Transaction.SoundWith.withBeat {allowed allowed' : Beat → Course → Option HostAnswer → Prop} {x : Transaction} {b : Beat}
    (h : x.SoundWith allowed) (hb : x.current = some b) {st : BeatState} {held : Option HostAnswer}
    (hok : allowed' { b with state := st } x.course held) :
    ({ x with current := some { b with state := st }, held } : Transaction).SoundWith allowed' := by
  refine ⟨h.answered, nofun, fun c hc => ?_⟩
  cases hc
  obtain ⟨hindex, haddr, hdir, -⟩ := h.beat b hb
  exact ⟨hindex, haddr, hdir, hok⟩

/-- A transaction without a current beat is sound in either sense. -/
theorem Transaction.soundWith_of_idle {allowed : Beat → Course → Option HostAnswer → Prop} {x : Transaction}
    (ha : x.answered < x.len.beats) (hb : x.current = none) (hh : x.held = none) : x.SoundWith allowed :=
  ⟨ha, fun _ => hh, fun _ hc => nomatch hb.symm.trans hc⟩

theorem State.hostSound_iff (s : State) : s.hostSound ↔ ∀ x, s.host = some x → s.hostPortOpen = true ∧ x.Sound :=
  ⟨fun h x hx => let ⟨h1, h2, h3, h4⟩ := h x hx; ⟨h1, h2, h3, h4⟩, fun h x hx => let ⟨h1, h2, h3, h4⟩ := h x hx; ⟨h1, h2, h3, h4⟩⟩

/-! ## The beat before the checker (R81, R84, R85) -/

/-- The transaction has this beat before the checker. -/
structure State.Presents (s : State) (x : Transaction) (b : Beat) : Prop where
  host : s.host = some x
  current : x.current = some b
  course : x.course = .normal
  state : b.state = .taken ∨ b.state = .held

theorem State.beatAtChecker_iff {s : State} {b : Beat} : s.beatAtChecker = some b ↔ ∃ x, s.Presents x b := by
  unfold State.beatAtChecker
  cases hx : s.host with
  | none => exact ⟨nofun, fun ⟨x, hp⟩ => nomatch hx.symm.trans hp.host⟩
  | some x =>
    simp only [Option.filter_eq_some_iff, Bool.and_eq_true, Bool.or_eq_true, decide_eq_true_eq]
    refine ⟨fun ⟨hb, hcourse, hstate⟩ => ⟨x, hx, hb, hcourse, hstate⟩, fun ⟨y, hp⟩ => ?_⟩
    cases hx.symm.trans hp.host
    exact ⟨hp.current, hp.course, hp.state⟩

theorem State.beatAtChecker_congr {s t : State} (h : s.host = t.host) : s.beatAtChecker = t.beatAtChecker := by
  rw [State.beatAtChecker, State.beatAtChecker, h]

theorem State.beatAtChecker_of_state {s : State} {x : Transaction} {b : Beat} (hx : s.host = some x) (hb : x.current = some b)
    (hs : b.state ≠ .taken ∧ b.state ≠ .held) : s.beatAtChecker = none := by
  refine Option.eq_none_iff_forall_ne_some.mpr fun c hc => ?_
  obtain ⟨y, hp⟩ := State.beatAtChecker_iff.mp hc
  cases hx.symm.trans hp.host
  cases hb.symm.trans hp.current
  exact hp.state.elim hs.1 hs.2

theorem State.beatAtChecker_of_idle {s : State} {x : Transaction} (hx : s.host = some x) (hb : x.current = none) :
    s.beatAtChecker = none := by
  refine Option.eq_none_iff_forall_ne_some.mpr fun c hc => ?_
  obtain ⟨y, hp⟩ := State.beatAtChecker_iff.mp hc
  cases hx.symm.trans hp.host
  cases hb.symm.trans hp.current

namespace State.Presents
variable {s : State} {x : Transaction} {b : Beat}

theorem beatAtChecker (h : s.Presents x b) : s.beatAtChecker = some b := State.beatAtChecker_iff.mpr ⟨x, h⟩

/-- No answer is held for a beat before the checker. -/
theorem held_none (h : s.Presents x b) (hx : x.Presented) : x.held = none := by
  obtain ⟨-, -, -, hok | ⟨-, -, hheld⟩⟩ := hx.beat b h.current
  · rcases h.state with hs | hs
    · simp [Beat.answerSound, hs, h.course] at hok
    · simp only [Beat.answerSound, hs, decide_eq_true_eq] at hok
      exact hok.2
  · exact hheld

/-- Between steps a beat before the checker is HELD. -/
theorem held_of_sound (h : s.Presents x b) (hx : x.Sound) : b.state = .held := by
  obtain ⟨-, -, -, hok⟩ := hx.beat b h.current
  rcases h.state with hs | hs
  · simp [Beat.answerSound, hs, h.course] at hok
  · exact hs

theorem awaitsNoAnswer (h : s.Presents x b) : AwaitsNoAnswer s.host := by
  rw [h.host]
  exact awaitsNoAnswer_of_current h.current (by rcases h.state with hs | hs <;> simp [hs])

end State.Presents

/-! ## The three outcomes of the examination (R31 to R35, R53) -/

/-- The decision in progress of a held beat: what covers it and what blocks it. -/
def decisionOn (es : List Entry) (b : Beat) : Decision :=
  ⟨coveringOf es b.addr b.op.dir, blockingOf es b.addr b.op.dir⟩

theorem SameCoverage.decisionOn {es fs : List Entry} (h : SameCoverage es fs) (b : Beat) : decisionOn es b = decisionOn fs b := by
  rw [Machine.decisionOn, Machine.decisionOn, h.coveringOf, h.blockingOf]

/-- The disposition of a beat by the table. -/
def dispositionOn (es : List Entry) (b : Beat) : Disposition := dispositionOf (actionsOn es b.addr b.op)

/-- The state with the events of the decision of its beat raised. -/
def State.raisedOn (s : State) (b : Beat) : State :=
  s.raise (decisionEvents s.entries b.addr b.op s.time.tickCounter (dispositionOn s.entries b))

theorem Transaction.decidedAs_eq (x : Transaction) (b : Beat) (d : Disposition) :
    x.decidedAs b d = { x with current := some { b with state := .decided d }, held := d.ownAnswer } := by
  cases d <;> rfl

section Outcomes
variable {s : State} {x : Transaction} {b : Beat}

theorem State.examine_of_presents (h : s.Presents x b) : s.examine = s.examineBeat b := by
  simp [State.examine, h.beatAtChecker]

theorem State.examine_suspended (h : s.Presents x b) (hh : x.held = none) (hm : s.mode = .suspended) :
    s.examine = { s with checker := none, host := some (x.decidedAs b .passed) } := by
  rw [State.examine_of_presents h, State.examineBeat_suspended b hm, x.decidedAs_eq]
  exact State.dispose_eq .passed h.host h.current hh

theorem State.examine_decided (h : s.Presents x b) (hh : x.held = none) (hm : s.mode = .monitoring)
    (hb : blockingOf s.entries b.addr b.op.dir = []) :
    s.examine = { s with
      checker := none, entries := judged s.entries b.addr b.op, queue := (s.raisedOn b).queue, alerts := (s.raisedOn b).alerts
      host := some (x.decidedAs b (dispositionOn s.entries b)) } := by
  have hqueue := State.raise_queue_congr (s := { s with checker := none, entries := judged s.entries b.addr b.op }) (t := s) rfl
  have halerts := State.raise_alerts_congr (s := { s with checker := none, entries := judged s.entries b.addr b.op }) (t := s) rfl rfl
  rw [State.examine_of_presents h, State.examineBeat_unblocked hm hb, x.decidedAs_eq, State.decideBeat, ← dispositionOn,
    State.raise_frame, hqueue, halerts]
  exact State.dispose_eq _ h.host h.current hh

theorem State.examine_held (h : s.Presents x b) (hm : s.mode = .monitoring)
    (hb : blockingOf s.entries b.addr b.op.dir ≠ []) :
    s.examine = { s with
      checker := some (decisionOn s.entries b), host := some { x with current := some { b with state := .held } }
      port := { s.port with list := promoted (blockingOf s.entries b.addr b.op.dir) s.port.list } } := by
  rw [State.examine_of_presents h, State.examineBeat_blocked hm hb]
  simp only [State.promote, State.setBeatState, h.host, h.current, Option.map_some]
  rfl

end Outcomes

end Sys2Proof.Machine
end

section
/-! Settling (R14, R64, R67): an examination makes the hold sound, filling takes the free places, and a grant leaves no work
waiting for a free bus. Each stage keeps what the stage before it brought about. -/

namespace Sys2Proof.Machine

/-! ## The stages -/

/-- Sound but for the free places of the list and a grant of the bus: as an examination leaves the state. -/
structure State.Examined (s : State) : Prop where
  table : TableSound s.entries
  suspension : SuspensionSound s.mode s.entries
  fetch : FetchListSound s.port.list s.entries s.port.fetches
  access : AccessSound s.host s.port.list.head? s.port.bus
  hold : s.holdSound
  host : ∀ x, s.host = some x → s.hostPortOpen = true ∧ x.Sound

/-- Sound but for settling: a beat may be presented to the checker, and the decision in progress may be out of date. -/
structure State.Unsettled (s : State) : Prop where
  table : TableSound s.entries
  suspension : SuspensionSound s.mode s.entries
  fetch : FetchListSound s.port.list s.entries s.port.fetches
  access : AccessSound s.host s.port.list.head? s.port.bus
  idle : s.beatAtChecker = none → s.checker = none
  host : ∀ x, s.host = some x → s.hostPortOpen = true ∧ x.Presented

theorem State.trafficSound_iff (s : State) : s.trafficSound ↔ s.Examined ∧ s.arbiterSound ∧ s.roomSound := by
  rw [State.trafficSound, State.fetchSound_iff, State.accessSound_iff, State.hostSound_iff]
  constructor
  · rintro ⟨h1, h2, h3, h4, h5, h6, h7, h8⟩
    exact ⟨⟨h1, h2, h3, h4, h5, h8⟩, h6, h7⟩
  · rintro ⟨⟨h1, h2, h3, h4, h5, h8⟩, h6, h7⟩
    exact ⟨h1, h2, h3, h4, h5, h6, h7, h8⟩

theorem State.Examined.unsettled {s : State} (h : s.Examined) : s.Unsettled :=
  { h with
    idle := h.hold.1
    host := fun x hx => (h.host x hx).imp_right Transaction.Sound.presented }

/-! ## Examination -/

/-- A presented transaction with no beat before the checker is sound. -/
theorem Transaction.Presented.sound {s : State} {x : Transaction} (h : x.Presented) (hx : s.host = some x)
    (hb : s.beatAtChecker = none) : x.Sound := by
  refine ⟨h.answered, h.idle, fun b hc => ?_⟩
  obtain ⟨hindex, haddr, hdir, hok | ⟨hs, hcourse, -⟩⟩ := h.beat b hc
  · exact ⟨hindex, haddr, hdir, hok⟩
  · have hp : s.Presents x b := ⟨hx, hc, hcourse, .inl hs⟩
    cases hb.symm.trans hp.beatAtChecker

/-- The transaction with its beat decided by a sound table. -/
theorem Transaction.Presented.decidedAs {x : Transaction} {b : Beat} (h : x.Presented) (hb : x.current = some b)
    (hcourse : x.course = .normal) {d : Disposition} (hd : d = .dropped → b.op.dir = .write) : (x.decidedAs b d).Sound := by
  rw [x.decidedAs_eq]
  exact h.withBeat hb (decide_eq_true ⟨hcourse, rfl, hd⟩)

theorem dispositionOn_dropped {es : List Entry} (h : TableSound es) {b : Beat} (hd : dispositionOn es b = .dropped) :
    b.op.dir = .write := by
  cases hop : b.op with
  | write => rfl
  | read =>
    rw [dispositionOn, hop] at hd
    exact absurd hd (disposition_of_read h.2 b.addr)

theorem State.beatAtChecker_of_decided {s : State} {x : Transaction} {b : Beat} {d : Disposition}
    (h : s.host = some (x.decidedAs b d)) : s.beatAtChecker = none :=
  State.beatAtChecker_of_state h rfl ⟨nofun, nofun⟩

theorem State.holdSound_of_none {s : State} (hb : s.beatAtChecker = none) (hc : s.checker = none) : s.holdSound :=
  ⟨fun _ => hc, fun _ h => nomatch hb.symm.trans h⟩

theorem awaitsNoAnswer_decidedAs (x : Transaction) (b : Beat) (d : Disposition) : AwaitsNoAnswer (some (x.decidedAs b d)) :=
  awaitsNoAnswer_of_current (b := { b with state := .decided d }) rfl nofun

/-- R34, R35: the beat decided, on a table in the same roles. -/
theorem State.Unsettled.decided {p : State} {x : Transaction} {b : Beat} (h : p.Unsettled) (hp : p.Presents x b)
    {es : List Entry} (hes : TableSound es) (hr : SameRoles p.entries es) {d : Disposition}
    (hd : d = .dropped → b.op.dir = .write) (q : EventQueue) (a : AlertUnit) :
    State.Examined { p with checker := none, entries := es, queue := q, alerts := a, host := some (x.decidedAs b d) } := by
  refine ⟨hes, h.suspension.sameRoles h.table hr, h.fetch.sameRoles hr, h.access.of_host hp.awaitsNoAnswer
    (awaitsNoAnswer_decidedAs x b d), State.holdSound_of_none (State.beatAtChecker_of_decided rfl) rfl, fun y hy => ?_⟩
  cases hy
  obtain ⟨hopen, hx⟩ := h.host x hp.host
  exact ⟨hopen, hx.decidedAs hp.current hp.course hd⟩

theorem SameRoles.refl (es : List Entry) : SameRoles es es := ⟨rfl, fun _ => rfl, fun _ => rfl⟩

/-- R32: the beat held. -/
theorem State.Unsettled.held {p : State} {x : Transaction} {b : Beat} (h : p.Unsettled) (hp : p.Presents x b)
    (hm : p.mode = .monitoring) (hb : blockingOf p.entries b.addr b.op.dir ≠ []) :
    State.Examined { p with
      checker := some (decisionOn p.entries b), host := some { x with current := some { b with state := .held } }
      port := { p.port with list := promoted (blockingOf p.entries b.addr b.op.dir) p.port.list } } := by
  have hn := blockingOf_nodup p.entries b.addr b.op.dir
  obtain ⟨hopen, hx⟩ := h.host x hp.host
  have hheld := hp.held_none hx
  refine ⟨h.table, h.suspension, h.fetch.promoted hn, ?_, ⟨fun hnone => ?_, fun c hc => ?_⟩, fun y hy => ?_⟩
  · refine (h.access.of_host hp.awaitsNoAnswer (awaitsNoAnswer_of_current (b := { b with state := .held }) rfl nofun)).of_head
      fun a ha how => ?_
    have hf : p.port.fetches = true := p.port.fetches_iff.mpr ⟨a, ha, how⟩
    exact (hf ▸ h.fetch).promoted_head _
  · have hpresents : State.Presents { p with
        checker := some (decisionOn p.entries b), host := some { x with current := some { b with state := .held } }
        port := { p.port with list := Machine.promoted (blockingOf p.entries b.addr b.op.dir) p.port.list } }
        { x with current := some { b with state := .held } } { b with state := .held } := ⟨rfl, rfl, hp.course, .inr rfl⟩
    cases hnone.symm.trans hpresents.beatAtChecker
  · obtain ⟨y, hq⟩ := State.beatAtChecker_iff.mp hc
    obtain ⟨hhost, hcurrent, -, -⟩ := hq
    cases hhost
    cases hcurrent
    exact ⟨hm, hb, rfl, (promoted_promoted hn _).symm⟩
  · cases hy
    refine ⟨hopen, ?_⟩
    have hok : ({ b with state := .held } : Beat).answerSound x.course x.held = true := by
      simp [Beat.answerSound, hp.course, hheld]
    exact hx.withBeat (allowed' := fun b course held => b.answerSound course held = true) hp.current hok

/-- An examination brings the hold up to date. -/
theorem State.Unsettled.examine {p : State} (h : p.Unsettled) : p.examine.Examined := by
  cases hb : p.beatAtChecker with
  | none =>
    rw [State.examine_of_none hb]
    exact { h with
      hold := State.holdSound_of_none hb (h.idle hb)
      host := fun x hx => (h.host x hx).imp_right fun hsound => hsound.sound hx hb }
  | some b =>
    obtain ⟨x, hp⟩ := State.beatAtChecker_iff.mp hb
    have hheld := hp.held_none (h.host x hp.host).2
    cases hm : p.mode with
    | suspended =>
      rw [State.examine_suspended hp hheld hm]
      exact h.decided hp h.table (.refl _) (d := .passed) nofun p.queue p.alerts
    | monitoring =>
      by_cases hblocking : blockingOf p.entries b.addr b.op.dir = []
      · rw [State.examine_decided hp hheld hm hblocking]
        exact h.decided hp (h.table.judged _ _) (judged_sameRoles _ _ _) (dispositionOn_dropped h.table) _ _
      · rw [State.examine_held hp hm hblocking]
        exact h.held hp hm hblocking

/-- Where the hold is up to date there is nothing to examine. -/
theorem State.Examined.examine_eq {s : State} (h : s.Examined) : s.examine = s := by
  cases hb : s.beatAtChecker with
  | none => exact State.examine_of_none hb
  | some b =>
    obtain ⟨x, hp⟩ := State.beatAtChecker_iff.mp hb
    obtain ⟨hm, hblocking, hchecker, hlist⟩ := h.hold.2 b hb
    have hstate := hp.held_of_sound (h.host x hp.host).2
    rw [State.examine_held hp hm hblocking, ← hlist]
    have hbeat : ({ b with state := .held } : Beat) = b := by rw [← hstate]
    have hhost : some ({ x with current := some { b with state := .held } } : Transaction) = s.host := by
      rw [hbeat, hp.host, ← hp.current]
    rw [hhost, decisionOn, ← hchecker]

/-! ## Filling (R14) -/

/-- The list with the promotion of the decision in progress, if there is one. -/
def promotedFor (checker : Option Decision) (list : List FetchRequest) : List FetchRequest :=
  match checker with
  | none => list
  | some d => promoted d.blocking list

theorem State.promote_eq (s : State) : s.promote = { s with port := { s.port with list := promotedFor s.checker s.port.list } } := by
  cases hc : s.checker with
  | none => rw [State.promote_of_none hc, promotedFor]; rw [← hc]
  | some d => simp only [State.promote, promotedFor, hc]

/-- The entries that take places as free places are filled. -/
def State.placed (s : State) : List Nat :=
  if s.mode = .monitoring then s.pendingInOrder.take (listCapacity - s.port.list.length) else []

/-- The PENDING entries in ascending index. -/
def State.pendings (s : State) : List Nat := indexesOf (fun e => decide (e.state = .pending)) s.entries

section Fill
variable {s : State} {i j : Nat}

theorem State.pendingInOrder_eq (s : State) :
    s.pendingInOrder =
      s.pendings.filter (fun i => s.blocking.contains i) ++ s.pendings.filter fun i => !s.blocking.contains i := rfl

theorem State.pendings_sorted (s : State) : s.pendings.Pairwise (· < ·) := indexesOf_sorted _ _

theorem State.mem_pendings : i ∈ s.pendings ↔ i < s.entries.length ∧ (s.entry i).state = .pending := by
  simp [State.pendings, mem_indexesOf, State.entry]

theorem State.pendingInOrder_perm (s : State) : s.pendingInOrder.Perm s.pendings :=
  List.filter_append_perm _ _

theorem State.mem_pendingInOrder : i ∈ s.pendingInOrder ↔ i < s.entries.length ∧ (s.entry i).state = .pending :=
  s.pendingInOrder_perm.mem_iff.trans State.mem_pendings

theorem State.pendingInOrder_nodup (s : State) : s.pendingInOrder.Nodup :=
  s.pendingInOrder_perm.nodup_iff.mpr (s.pendings_sorted.imp Nat.ne_of_lt)

theorem State.placed_of_monitoring (h : s.mode = .monitoring) :
    s.placed = s.pendingInOrder.take (listCapacity - s.port.list.length) := if_pos h

theorem State.placed_of_suspended (h : s.mode = .suspended) : s.placed = [] := if_neg (by simp [h])

theorem State.placed_sublist (s : State) : s.placed.Sublist s.pendingInOrder := by
  unfold State.placed
  split
  · exact List.take_sublist _ _
  · exact List.nil_sublist _

theorem State.placed_nodup (s : State) : s.placed.Nodup := s.pendingInOrder_nodup.sublist s.placed_sublist

theorem State.pending_of_placed (h : i ∈ s.placed) : i < s.entries.length ∧ (s.entry i).state = .pending :=
  State.mem_pendingInOrder.mp (s.placed_sublist.subset h)

theorem State.placed_length (s : State) : s.placed.length ≤ listCapacity - s.port.list.length := by
  unfold State.placed
  split
  · exact List.length_take_le _ _
  · exact Nat.zero_le _

/-- A PENDING entry that takes no place in MONITORING finds none. -/
theorem State.placed_full (hm : s.mode = .monitoring) (hj : j ∈ s.pendingInOrder) (hn : j ∉ s.placed) :
    s.placed.length = listCapacity - s.port.list.length := by
  rw [State.placed_of_monitoring hm] at hn ⊢
  rw [List.length_take]
  refine Nat.min_eq_left (Nat.le_of_not_lt fun hlt => hn ?_)
  rwa [List.take_of_length_le (Nat.le_of_lt hlt)]

/-- The order in which places are taken (R14). -/
def State.Before (s : State) (i j : Nat) : Prop :=
  s.blocking.contains i = true ∧ s.blocking.contains j = false ∨ s.blocking.contains i = s.blocking.contains j ∧ i < j

theorem State.pendingInOrder_before (s : State) : s.pendingInOrder.Pairwise s.Before := by
  rw [State.pendingInOrder_eq, List.pairwise_append]
  refine ⟨?_, ?_, fun i hi j hj => .inl ⟨(List.mem_filter.mp hi).2, by simpa using (List.mem_filter.mp hj).2⟩⟩
  · refine (s.pendings_sorted.filter _).imp_of_mem fun hi hj hlt => .inr ⟨?_, hlt⟩
    rw [(List.mem_filter.mp hi).2, (List.mem_filter.mp hj).2]
  · refine (s.pendings_sorted.filter _).imp_of_mem fun hi hj hlt => .inr ⟨?_, hlt⟩
    have hi' := (List.mem_filter.mp hi).2
    have hj' := (List.mem_filter.mp hj).2
    simp only [Bool.not_eq_true'] at hi' hj'
    rw [hi', hj']

/-- An entry that takes a place comes before a PENDING one that does not. -/
theorem State.placed_before (hi : i ∈ s.placed) (hj : j ∈ s.pendingInOrder) (hn : j ∉ s.placed) : s.Before i j := by
  have hm : s.mode = .monitoring := by
    cases hm : s.mode with
    | monitoring => rfl
    | suspended => rw [State.placed_of_suspended hm] at hi; cases hi
  rw [State.placed_of_monitoring hm] at hi hn
  have horder := s.pendingInOrder_before
  rw [← List.take_append_drop (listCapacity - s.port.list.length) s.pendingInOrder] at horder hj
  exact (List.pairwise_append.mp horder).2.2 i hi j ((List.mem_append.mp hj).resolve_left hn)

theorem State.holdSound.promotedFor (h : s.holdSound) : promotedFor s.checker s.port.list = s.port.list := by
  cases hb : s.beatAtChecker with
  | none => rw [h.1 hb]; rfl
  | some b =>
    obtain ⟨-, -, hchecker, hlist⟩ := h.2 b hb
    rw [hchecker]
    exact hlist.symm

theorem State.fill_entries (s : State) : s.fill.entries = (s.placed.foldl State.placeRequest s).entries := by
  unfold State.fill State.placed
  split
  · rw [State.promote_frame]
  · rfl

/-- Everything that filling does to the table. -/
theorem State.fill_entry (s : State) (j : Nat) :
    s.fill.entry j = if j ∈ s.placed then { s.entry j with state := .fetching } else s.entry j := by
  obtain ⟨hentry, -, -⟩ := State.placeRequests_spec s.placed s
  rw [State.entry, State.fill_entries]
  refine (hentry j).trans (if_congr ?_ rfl rfl)
  exact ⟨And.left, fun hj => ⟨hj, (State.pending_of_placed hj).1⟩⟩

theorem State.fill_length (s : State) : s.fill.entries.length = s.entries.length := by
  rw [State.fill_entries]
  exact (State.placeRequests_spec s.placed s).2.1

/-- Everything that filling does to the list. -/
theorem State.fill_list (h : s.holdSound) :
    s.fill.port.list = Machine.promotedFor s.checker (s.port.list ++ s.placed.map fun i => (s.entry i).request i) := by
  obtain ⟨-, -, hlist⟩ := State.placeRequests_spec s.placed s
  cases hm : s.mode with
  | suspended =>
    rw [State.placed_of_suspended hm, List.map_nil, List.append_nil, h.promotedFor]
    simp [State.fill, hm]
  | monitoring =>
    rw [← hlist, State.placed_of_monitoring hm, State.fill, if_pos hm, State.promote_eq, State.placeRequests_frame]

theorem State.fill_filled (s : State) (j : Nat) : (s.entry j).filled (s.fill.entry j) := by
  rw [State.fill_entry]
  split
  · next hj => exact .inr ⟨(State.pending_of_placed hj).2, rfl⟩
  · exact .inl rfl

theorem Entry.filled.desc {e f : Entry} (h : e.filled f) : f.desc = e.desc := by
  rcases h with rfl | ⟨-, rfl⟩ <;> rfl

theorem Entry.filled.of_not_pending {e f : Entry} (h : e.filled f) (hs : e.state ≠ .pending) : f = e :=
  h.resolve_right fun hp => hs hp.1

/-- Entries that take places cover and block as before. -/
theorem State.fill_coverage (s : State) : SameCoverage s.entries s.fill.entries := by
  have hstate : ∀ (f : EntryState → Bool), f .pending = f .fetching → ∀ i, f (s.entry i).state = f (s.fill.entry i).state := by
    intro f hf i
    rcases s.fill_filled i with h | ⟨hs, h⟩ <;> rw [h]
    rw [hs, hf]
  exact .of_states s.fill_length.symm (fun i => (s.fill_filled i).desc.symm) (hstate _ rfl) (hstate _ rfl)

end Fill

/-- A table is sound when it has its length and each index its sound entry. -/
theorem tableSound_of_entry {es : List Entry} (hl : es.length = entryCount) (h : ∀ i, (entryAt es i).sound = true) :
    TableSound es :=
  ⟨hl, (forall_mem_iff_entryAt (p := fun e => e.sound = true) rfl).mpr h⟩

theorem suspensionSound_of_entry {mode : PartMode} {es : List Entry}
    (h : mode = .suspended → ∀ i, (entryAt es i).shadowBearing = true →
      (entryAt es i).state ≠ .armed ∧ (entryAt es i).state ≠ .fetching) : SuspensionSound mode es := fun hm =>
  (forall_mem_iff_entryAt (p := fun e => e.shadowBearing = true → e.state ≠ .armed ∧ e.state ≠ .fetching)
    (fun h => nomatch h)).mpr (h hm)

theorem FetchListSound.promotedFor {list : List FetchRequest} {es : List Entry} {onBus : Bool} (h : FetchListSound list es onBus)
    {checker : Option Decision} (hn : ∀ d, checker = some d → d.blocking.Nodup) :
    FetchListSound (promotedFor checker list) es onBus := by
  cases checker with
  | none => exact h
  | some d => exact h.promoted (hn d rfl)

/-- A promotion leaves the head that is on the bus. -/
theorem FetchListSound.promotedFor_head {list : List FetchRequest} {es : List Entry} (h : FetchListSound list es true)
    (checker : Option Decision) : (Machine.promotedFor checker list).head? = list.head? := by
  cases checker with
  | none => rfl
  | some d => exact h.promoted_head _

namespace State.Examined
variable {s : State}

/-- The decision in progress records ascending blocking entries. -/
theorem blocking_nodup (h : s.Examined) : ∀ d, s.checker = some d → d.blocking.Nodup := by
  intro d hd
  cases hb : s.beatAtChecker with
  | none => cases hd.symm.trans (h.hold.1 hb)
  | some b =>
    cases hd.symm.trans (h.hold.2 b hb).2.2.1
    exact blockingOf_nodup _ _ _

/-- The list with the requests of the entries that take places, before the promotion. -/
theorem placed_fetch (h : s.Examined) :
    FetchListSound (s.port.list ++ s.placed.map fun i => (s.entry i).request i) s.fill.entries s.port.fetches := by
  refine h.fetch.place s.placed_nodup ?_ (fun i hi => ?_) fun i => ⟨?_, (s.fill_filled i).desc⟩
  · have hcapacity := h.fetch.capacity
    have hlength := s.placed_length
    omega
  · obtain ⟨hlt, hs⟩ := State.pending_of_placed hi
    exact ⟨h.table.1 ▸ hlt, fun hf => nomatch hs.symm.trans hf⟩
  · have hentry := s.fill_entry i
    rw [State.entry] at hentry
    rw [hentry]
    by_cases hi : i ∈ s.placed
    · simp [hi]
    · simp [hi, State.entry]

theorem fill (h : s.Examined) : s.fill.Examined := by
  have hhost := s.fill_host
  have hchecker := s.fill_checker
  have hbus : s.fill.port.bus = s.port.bus := by rw [State.fill_frame]
  have hmode : s.fill.mode = s.mode := by rw [State.fill_frame]
  have hopen : s.fill.hostPortOpen = s.hostPortOpen := by rw [State.fill_frame]; rfl
  have hfetches : s.fill.port.fetches = s.port.fetches := by rw [MemoryPort.fetches, hbus, MemoryPort.fetches]
  refine ⟨tableSound_of_entry (s.fill_length.trans h.table.1) fun i => ?_, suspensionSound_of_entry fun hm i => ?_, ?_, ?_,
    ⟨fun hb => ?_, fun b hb => ?_⟩, fun x hx => ?_⟩
  · rcases s.fill_filled i with hf | ⟨hs, hf⟩ <;> rw [State.entry] at hf <;> rw [hf]
    · exact h.table.entry i
    · exact Entry.waiting_sound (h.table.entry i) (by rw [← State.entry, hs]; rfl) rfl
  · rw [hmode] at hm
    have hentry := s.fill_entry i
    rw [State.placed_of_suspended hm, if_neg List.not_mem_nil, State.entry] at hentry
    rw [hentry]
    exact h.suspension.entry hm i
  · rw [State.fill_list h.hold, hfetches]
    exact h.placed_fetch.promotedFor h.blocking_nodup
  · rw [hhost, hbus]
    refine h.access.of_head fun a ha how => ?_
    have hf : s.port.fetches = true := s.port.fetches_iff.mpr ⟨a, ha, how⟩
    have hplaced := h.placed_fetch
    rw [hf] at hplaced
    obtain ⟨r, rest, hlist, -⟩ := (hf ▸ h.fetch).exists_issued
    rw [State.fill_list h.hold, hplaced.promotedFor_head, hlist]
    rfl
  · rw [hchecker]
    exact h.hold.1 ((State.beatAtChecker_congr hhost).symm.trans hb)
  · obtain ⟨hm, hblocking, hdecision, -⟩ := h.hold.2 b ((State.beatAtChecker_congr hhost).symm.trans hb)
    rw [← s.fill_coverage.coveringOf, ← s.fill_coverage.blockingOf, hmode, hchecker, State.fill_list h.hold, hdecision]
    exact ⟨hm, hblocking, rfl, (promoted_promoted (blockingOf_nodup _ _ _) _).symm⟩
  · rw [hhost] at hx
    rw [hopen]
    exact h.host x hx

theorem fill_list_length (h : s.Examined) : s.fill.port.list.length = s.port.list.length + s.placed.length := by
  rw [State.fill_list h.hold]
  unfold Machine.promotedFor
  split
  · simp
  · next d hd => rw [(promoted_perm _ (h.blocking_nodup d hd) _).length_eq]; simp

/-- An entry that is PENDING after filling in MONITORING has found the list full. -/
theorem fill_full (h : s.Examined) (hm : s.mode = .monitoring) {j : Nat} (hj : (s.fill.entry j).state = .pending) :
    j ∈ s.pendingInOrder ∧ j ∉ s.placed ∧ s.fill.port.list.length = listCapacity := by
  have hn : j ∉ s.placed := fun hmem => by
    rw [State.fill_entry, if_pos hmem] at hj
    cases hj
  rw [State.fill_entry, if_neg hn] at hj
  have hlt : j < s.entries.length := by
    by_contra hge
    rw [State.entry, entryAt_eq_empty (Nat.le_of_not_lt hge)] at hj
    cases hj
  have hmem := State.mem_pendingInOrder.mpr ⟨hlt, hj⟩
  have hcapacity := h.fetch.capacity
  have hfull := State.placed_full hm hmem hn
  exact ⟨hmem, hn, by rw [h.fill_list_length]; omega⟩

theorem roomSound_fill (h : s.Examined) : s.fill.roomSound := by
  intro hm hroom
  refine (forall_mem_iff_entryAt (p := fun e => e.state ≠ .pending) nofun).mpr fun j hj => ?_
  have hmode : s.fill.mode = s.mode := by rw [State.fill_frame]
  obtain ⟨-, -, hfull⟩ := h.fill_full (hmode ▸ hm) hj
  have hlt := of_decide_eq_true hroom
  omega

end State.Examined

/-! ## The grant (R67) -/

/-- The requests that wait for kind 1 and kind 3 while no request is ISSUED, and the beat that waits for kind 2. -/
theorem State.choice_of_queued {s : State} (h : ∀ r ∈ s.port.list, r.status = .queued) :
    s.choice =
      arbiterChoice (s.port.list.head?.any fun r => s.blocking.contains r.entry) s.waitingBeat.isSome
        (!s.port.list.isEmpty && !s.port.list.head?.any fun r => s.blocking.contains r.entry) s.port.lastGrant := by
  have hhead : s.queuedHead = s.port.list.head? := by
    unfold State.queuedHead
    cases hl : s.port.list with
    | nil => rfl
    | cons r rest => simp [h r (hl ▸ List.mem_cons_self)]
  have hsome : s.port.list.head?.isSome = !s.port.list.isEmpty := by cases s.port.list <;> rfl
  simp only [State.choice, hhead, hsome]

theorem arbiterChoice_eq_none {w1 w2 w3 : Bool} {last : Option GrantKind} (h : arbiterChoice w1 w2 w3 last = none) :
    w1 = false ∧ w2 = false ∧ w3 = false := by
  cases w1 <;> cases w2 <;> cases w3 <;> simp [arbiterChoice] at h ⊢
  split at h <;> cases h

/-- A kind of the fetch list is granted to a request alone. -/
theorem arbiterChoice_head {w1 w2 w3 : Bool} {last : Option GrantKind} {k : GrantKind}
    (h : arbiterChoice w1 w2 w3 last = some k) (hk : k ≠ .kind2) : w1 = true ∨ w3 = true := by
  cases w1 <;> cases w2 <;> cases w3 <;> simp [arbiterChoice] at h ⊢
  exact hk h.symm

/-- What a grant of a free bus can come to, every request being QUEUED. -/
inductive Granted (s : State) : State → Prop where
  | nothing (hl : s.port.list = []) (hw : s.waitingBeat = none) : Granted s s
  | head (k : GrantKind) (hk : k ≠ .kind2) (r : FetchRequest) (rest : List FetchRequest) (hl : s.port.list = r :: rest) :
      Granted s { s with port := ⟨{ r with status := .issued } :: rest, some ⟨.fetch, r.addr, .read, 1⟩, some k⟩ }
  | beat (x : Transaction) (b : Beat) (hx : s.host = some x) (hb : x.current = some b) (hs : b.state = .decided .passed) :
      Granted s { s with
        host := some { x with current := some { b with state := .atMemory } }
        port := ⟨s.port.list, some ⟨.host true, b.addr, b.op, 1⟩, some .kind2⟩ }

theorem State.waitingBeat_iff {s : State} {b : Beat} :
    s.waitingBeat = some b ↔ ∃ x, s.host = some x ∧ x.current = some b ∧ b.state = .decided .passed := by
  unfold State.waitingBeat
  cases s.host with
  | none => simp
  | some x => simp [Option.filter_eq_some_iff]

theorem State.grant_granted {s : State} (hbus : s.port.bus = none) (hq : ∀ r ∈ s.port.list, r.status = .queued) :
    Granted s s.grant := by
  have hchoice := State.choice_of_queued hq
  cases hc : s.choice with
  | none =>
    rw [State.grant_of_none hc]
    obtain ⟨h1, h2, h3⟩ := arbiterChoice_eq_none (hchoice.symm.trans hc)
    rw [h1] at h3
    exact .nothing (by simpa using h3) (by simpa using h2)
  | some k =>
    by_cases hk : k = .kind2
    · subst hk
      have hw := arbiterChoice_kind2 (hchoice.symm.trans hc)
      obtain ⟨b, hb⟩ := Option.isSome_iff_exists.mp hw
      obtain ⟨x, hx, hcurrent, hs⟩ := State.waitingBeat_iff.mp hb
      rw [State.grant_beat hbus hc hx hcurrent]
      exact .beat x b hx hcurrent hs
    · cases hl : s.port.list with
      | nil => simpa [hl] using arbiterChoice_head (hchoice.symm.trans hc) hk
      | cons r rest =>
        rw [State.grant_head hbus hc hk hl]
        exact .head k hk r rest hl

end Sys2Proof.Machine
end

section
/-! The grant at the end of settling keeps what filling brought about, and so settling makes traffic sound. -/

namespace Sys2Proof.Machine

/-! ## The promoted group as its first request is issued (R60, R61) -/

theorem promoted_filter (blocking : List Nat) (p : FetchRequest → Bool) (list : List FetchRequest) :
    promoted blocking (list.filter p) = (promoted blocking list).filter p := by
  simp only [promoted, List.filter_append, List.filter_flatMap, List.filter_filter, Bool.and_comm, Bool.and_left_comm, Bool.and_assoc]

/-- The head of a promoted list issued leaves it promoted. -/
theorem promoted_issue {blocking : List Nat} {r : FetchRequest} {rest : List FetchRequest} {es : List Entry}
    (h : FetchListSound (r :: rest) es false) (hp : r :: rest = promoted blocking (r :: rest)) :
    ({ r with status := .issued } :: rest : List FetchRequest) = promoted blocking ({ r with status := .issued } :: rest) := by
  have hnot : r ∉ rest := h.not_mem_rest (h.queued r List.mem_cons_self)
  have hrest : promoted blocking rest = rest := by
    have hfilter : (r :: rest).filter (fun q => decide (q ≠ r)) = rest := by
      rw [List.filter_cons_of_neg (by simp)]
      exact List.filter_eq_self.mpr fun q hq => decide_eq_true fun he => hnot (he ▸ hq)
    calc promoted blocking rest = promoted blocking ((r :: rest).filter fun q => decide (q ≠ r)) := by rw [hfilter]
      _ = (promoted blocking (r :: rest)).filter fun q => decide (q ≠ r) := promoted_filter _ _ _
      _ = rest := by rw [← hp, hfilter]
  have hissued : issuedOf rest = [] := issuedOf_of_queued h.tail
  have hhead : promoted blocking ({ r with status := .issued } :: rest) = { r with status := .issued } :: promoted blocking rest := by
    rw [promoted_eq, promoted_eq, hissued]
    simp [issuedOf, groupOf, othersOf, queuedOf] at hissued ⊢
    exact hissued
  rw [hhead, hrest]

/-! ## The grant -/

namespace State.Examined
variable {s : State}

theorem queued_of_free (h : s.Examined) (hbus : s.port.bus = none) : FetchListSound s.port.list s.entries false := by
  have hfetch := h.fetch
  rwa [MemoryPort.fetches, hbus] at hfetch

theorem grant_granted (h : s.Examined) (hbus : s.port.bus = none) : Granted s s.grant :=
  State.grant_granted hbus (h.queued_of_free hbus).queued

theorem grant_head (h : s.Examined) (hbus : s.port.bus = none) {k : GrantKind} {r : FetchRequest} {rest : List FetchRequest}
    (hl : s.port.list = r :: rest) :
    State.Examined { s with port := ⟨{ r with status := .issued } :: rest, some ⟨.fetch, r.addr, .read, 1⟩, some k⟩ } := by
  have hfetch := h.queued_of_free hbus
  have haccess := h.access
  rw [hbus] at haccess
  have hnone := haccess.awaitsNoAnswer_of_free
  rw [hl] at hfetch
  refine { h with fetch := hfetch.issue, access := ⟨?_, ?_, ?_, ?_, ?_⟩, hold := ⟨h.hold.1, fun b hb => ?_⟩ }
  · intro a ha how
    cases ha
    cases how
  · exact fun t ht hheld b hb hs => absurd hs (hnone t ht hheld b hb)
  · intro a ha _
    cases ha
    exact ⟨_, rfl, rfl⟩
  · intro a ha _
    cases ha
    rfl
  · intro a ha
    cases ha
    exact ⟨Nat.le_refl _, (by decide : 1 ≤ 1024)⟩
  · obtain ⟨hm, hblocking, hchecker, hlist⟩ := h.hold.2 b hb
    rw [hl] at hlist
    exact ⟨hm, hblocking, hchecker, promoted_issue hfetch hlist⟩

theorem grant_beat (h : s.Examined) (hbus : s.port.bus = none) {x : Transaction} {b : Beat} (hx : s.host = some x)
    (hb : x.current = some b) (hs : b.state = .decided .passed) :
    State.Examined { s with
      host := some { x with current := some { b with state := .atMemory } }
      port := ⟨s.port.list, some ⟨.host true, b.addr, b.op, 1⟩, some .kind2⟩ } := by
  have hsound := (h.host x hx).2
  obtain ⟨-, -, -, hanswer⟩ := hsound.beat b hb
  have hdecided : x.course = .normal ∧ x.held = none := by
    simp only [Beat.answerSound, hs, decide_eq_true_eq] at hanswer
    exact ⟨hanswer.1, hanswer.2.1⟩
  have hcalm : s.beatAtChecker = none := State.beatAtChecker_of_state hx hb (by simp [hs])
  refine ⟨h.table, h.suspension, h.queued_of_free hbus, ⟨?_, ?_, ?_, ?_, ?_⟩, State.holdSound_of_none ?_ (h.hold.1 hcalm), fun y hy => ?_⟩
  · intro a ha _
    cases ha
    exact ⟨_, rfl, hdecided.2, _, rfl, rfl, rfl, rfl⟩
  · exact fun _ _ _ _ _ _ => rfl
  · intro a ha how
    cases ha
    cases how
  · intro a ha how
    cases ha
    rcases how with how | how <;> cases how
  · intro a ha
    cases ha
    exact ⟨Nat.le_refl _, (by decide : 1 ≤ 1024)⟩
  · exact State.beatAtChecker_of_state (b := { b with state := .atMemory }) rfl rfl ⟨nofun, nofun⟩
  · cases hy
    refine ⟨(h.host x hx).1, ?_⟩
    have hok : ({ b with state := .atMemory } : Beat).answerSound x.course x.held = true := by
      simp [Beat.answerSound, hdecided]
    exact hsound.withBeat (allowed' := fun b course held => b.answerSound course held = true) hb hok

theorem grant (h : s.Examined) (hroom : s.roomSound) : s.grant.trafficSound := by
  rw [State.trafficSound_iff]
  cases hbus : s.port.bus with
  | some a =>
    rw [State.grant_of_busy hbus]
    exact ⟨h, (fun hfree => nomatch hbus.symm.trans hfree), hroom⟩
  | none =>
    have hgranted := h.grant_granted hbus
    revert hgranted
    generalize s.grant = t
    rintro (⟨hl, hw⟩ | ⟨k, -, r, rest, hl⟩ | ⟨x, b, hx, hb, hs⟩)
    · exact ⟨h, fun _ => ⟨hl, hw⟩, hroom⟩
    · refine ⟨h.grant_head hbus hl, nofun, fun hm hfree => hroom hm ?_⟩
      rw [State.hasRoom, hl]
      exact hfree
    · exact ⟨h.grant_beat hbus hx hb hs, nofun, hroom⟩

end State.Examined

/-- Settling makes traffic sound. -/
theorem State.Unsettled.settle {p : State} (h : p.Unsettled) : p.settle.trafficSound :=
  h.examine.fill.grant h.examine.roomSound_fill

namespace State.trafficSound
variable {s : State}

theorem examined (h : s.trafficSound) : s.Examined := (s.trafficSound_iff.mp h).1

theorem arbiter (h : s.trafficSound) : s.arbiterSound := (s.trafficSound_iff.mp h).2.1

theorem room (h : s.trafficSound) : s.roomSound := (s.trafficSound_iff.mp h).2.2

theorem unsettled (h : s.trafficSound) : s.Unsettled := h.examined.unsettled

end State.trafficSound

/-- Where no entry can take a place filling changes nothing. -/
theorem State.Examined.fill_eq {s : State} (h : s.Examined) (hroom : s.roomSound) : s.fill = s := by
  have hnone : s.placed = [] := by
    refine List.eq_nil_iff_forall_not_mem.mpr fun i hi => ?_
    obtain ⟨hlt, hs⟩ := State.pending_of_placed hi
    cases hm : s.mode with
    | suspended => rw [State.placed_of_suspended hm] at hi; cases hi
    | monitoring =>
      by_cases hfree : s.hasRoom = true
      · rw [State.entry, entryAt_eq_getElem hlt] at hs
        exact hroom hm hfree _ (List.getElem_mem hlt) hs
      · have hlength := s.placed_length
        have hfull : listCapacity ≤ s.port.list.length := Nat.le_of_not_lt fun hlt => hfree (decide_eq_true hlt)
        rw [Nat.sub_eq_zero_of_le hfull] at hlength
        rw [List.length_eq_zero_iff.mp (Nat.le_zero.mp hlength)] at hi
        cases hi
  have hlist := State.fill_list h.hold
  rw [hnone, List.map_nil, List.append_nil, h.hold.promotedFor] at hlist
  rw [State.fill_frame, State.fill_entries, hnone, hlist]
  rfl

/-- Where the hold is up to date and no place is to be taken, settling is a grant. -/
theorem State.Examined.settle_eq {s : State} (h : s.Examined) (hroom : s.roomSound) : s.settle = s.grant := by
  rw [State.settle, h.examine_eq, h.fill_eq hroom]

/-- Settling changes nothing of a settled state. -/
theorem State.trafficSound.settle_eq {s : State} (h : s.trafficSound) : s.settle = s := by
  rw [h.examined.settle_eq h.room]
  cases hbus : s.port.bus with
  | some a => exact State.grant_of_busy hbus
  | none =>
    obtain ⟨hl, hw⟩ := h.arbiter hbus
    refine State.grant_of_none ?_
    have hchoice := State.choice_of_queued (h.examined.queued_of_free hbus).queued
    rw [hchoice, hl, hw]
    rfl

end Sys2Proof.Machine
end

section
/-! What each operation leaves to settle: the end of an access, the requests that change the table, a supervisor reset. -/

namespace Sys2Proof.Machine

theorem entryAt_set_of_lt {es : List Entry} {i : Nat} (hi : i < es.length) (e : Entry) (j : Nat) :
    entryAt (es.set i e) j = if i = j then e else entryAt es j := by
  rw [entryAt_set]
  by_cases hij : i = j
  · subst hij
    rw [if_pos ⟨rfl, hi⟩, if_pos rfl]
  · rw [if_neg fun h => hij h.1, if_neg hij]

/-! ## Entries that set out to fetch (R12, R19, R20) -/

section BeginFetch
variable {s : State} {i j : Nat} {is : List Nat}

theorem State.beginFetch_entry (hi : i < s.entries.length) (j : Nat) :
    (s.beginFetch i).entry j =
      if i = j then (s.entry j).restarted (if s.hasRoom then .fetching else .pending) else s.entry j := by
  unfold State.beginFetch
  dsimp only
  cases hr : s.hasRoom with
  | false =>
    simp only [State.entry, Bool.false_eq_true, if_false, State.setEntry_entries, entryAt_set]
    by_cases hij : i = j
    · subst hij; simp [hi]
    · simp [hij]
  | true =>
    simp only [State.entry, if_true, State.placeRequest_entries, State.setEntry_entries, entryAt_set, List.length_set]
    by_cases hij : i = j
    · subst hij; simp [hi, Entry.restarted]
    · simp [hij]

theorem State.beginFetch_list (hi : i < s.entries.length) :
    (s.beginFetch i).port.list = if s.hasRoom then s.port.list ++ [(s.entry i).request i] else s.port.list := by
  unfold State.beginFetch
  dsimp only
  split
  · have hentry : (s.setEntry i ((s.entry i).restarted .pending)).entry i = (s.entry i).restarted .pending := by
      simp [State.entry, hi]
    simp only [State.placeRequest, hentry]
    rfl
  · rfl

theorem State.beginFetch_length (s : State) (i : Nat) : (s.beginFetch i).entries.length = s.entries.length := by
  have h := congrArg List.length (s.beginFetch_descs i)
  simpa [descs] using h

/-- Of the entries that set out to fetch those that find room. -/
def State.taking (s : State) (is : List Nat) : List Nat := is.take (listCapacity - s.port.list.length)

theorem State.taking_cons_of_room (h : s.hasRoom = true) (hi : i < s.entries.length) (is : List Nat) :
    s.taking (i :: is) = i :: (s.beginFetch i).taking is := by
  have hlt : s.port.list.length < listCapacity := of_decide_eq_true h
  rw [State.taking, State.taking, State.beginFetch_list hi, if_pos h, List.length_append, List.length_singleton,
    show listCapacity - s.port.list.length = listCapacity - (s.port.list.length + 1) + 1 by omega, List.take_succ_cons]

theorem State.taking_of_full (h : s.hasRoom = false) (is : List Nat) : s.taking is = [] := by
  have hge : listCapacity ≤ s.port.list.length := Nat.le_of_not_lt (of_decide_eq_false h)
  rw [State.taking, Nat.sub_eq_zero_of_le hge, List.take_zero]

theorem State.taking_subset (s : State) (h : i ∈ s.taking is) : i ∈ is := List.mem_of_mem_take h

/-- Entries that set out to fetch, in turn: the first ones take the free places, the others are PENDING. -/
theorem State.beginFetches_spec (is : List Nat) (s : State) (hn : is.Nodup) (hlt : ∀ i ∈ is, i < s.entries.length) :
    (∀ j, (is.foldl State.beginFetch s).entry j =
      if j ∈ s.taking is then (s.entry j).restarted .fetching
      else if j ∈ is then (s.entry j).restarted .pending else s.entry j) ∧
      (is.foldl State.beginFetch s).entries.length = s.entries.length ∧
      (is.foldl State.beginFetch s).port.list = s.port.list ++ (s.taking is).map fun i => (s.entry i).request i := by
  induction is generalizing s with
  | nil => exact ⟨fun j => by simp [State.taking], rfl, by simp [State.taking]⟩
  | cons i is ih =>
    obtain ⟨hi, hn'⟩ := List.nodup_cons.mp hn
    have hlti : i < s.entries.length := hlt i List.mem_cons_self
    obtain ⟨hentry, hlength, hlist⟩ := ih (s.beginFetch i) hn' fun j hj => by
      rw [State.beginFetch_length]
      exact hlt j (List.mem_cons_of_mem _ hj)
    have hother : ∀ j ∈ is, (s.beginFetch i).entry j = s.entry j := fun j hj => by
      rw [State.beginFetch_entry hlti, if_neg]
      rintro rfl
      exact hi hj
    simp only [List.foldl_cons]
    refine ⟨fun j => ?_, hlength.trans (State.beginFetch_length s i), ?_⟩
    · rw [hentry j, State.beginFetch_entry hlti]
      cases hr : s.hasRoom with
      | true =>
        rw [State.taking_cons_of_room hr hlti]
        by_cases hij : i = j
        · subst hij
          have hnot : i ∉ (s.beginFetch i).taking is := fun h => hi (State.taking_subset _ h)
          simp [hi, hnot]
        · simp [hij, Ne.symm hij]
      | false =>
        have hfull : (s.beginFetch i).hasRoom = false := by
          rw [State.hasRoom, State.beginFetch_list hlti, hr]
          exact hr
        rw [State.taking_of_full hr, State.taking_of_full hfull]
        by_cases hij : i = j
        · subst hij
          simp [hi]
        · simp [hij, Ne.symm hij]
    · rw [hlist, State.beginFetch_list hlti]
      cases hr : s.hasRoom with
      | true =>
        rw [State.taking_cons_of_room hr hlti, List.map_cons, if_pos rfl, List.append_assoc, List.singleton_append]
        congr 2
        exact List.map_congr_left fun j hj => by rw [hother j (State.taking_subset _ hj)]
      | false =>
        have hfull : (s.beginFetch i).hasRoom = false := by
          rw [State.hasRoom, State.beginFetch_list hlti, hr]
          exact hr
        rw [State.taking_of_full hr, State.taking_of_full hfull]
        simp

end BeginFetch

/-- These entries can set out to fetch: they bear a shadow and are not FETCHING. -/
structure CanFetch (es : List Entry) (is : List Nat) : Prop where
  nodup : is.Nodup
  lt : ∀ i ∈ is, i < entryCount
  bearing : ∀ i ∈ is, (entryAt es i).shadowBearing = true
  idle : ∀ i ∈ is, (entryAt es i).state ≠ .fetching

section BeginFetches
variable {s : State} {is : List Nat} {onBus : Bool}

theorem State.beginFetches_table (ht : TableSound s.entries) (hc : CanFetch s.entries is) :
    TableSound (is.foldl State.beginFetch s).entries := by
  obtain ⟨hentry, hlength, -⟩ := State.beginFetches_spec is s hc.nodup fun i hi => ht.1 ▸ hc.lt i hi
  refine tableSound_of_entry (hlength.trans ht.1) fun j => ?_
  have hj := hentry j
  rw [State.entry] at hj
  rw [hj]
  split
  · next hm => exact Entry.restarted_waiting_sound (ht.entry j) (hc.bearing j (State.taking_subset s hm)) rfl
  · split
    · next hm => exact Entry.restarted_waiting_sound (ht.entry j) (hc.bearing j hm) rfl
    · exact ht.entry j

theorem State.beginFetches_fetch (ht : TableSound s.entries) (hf : FetchListSound s.port.list s.entries onBus)
    (hc : CanFetch s.entries is) :
    FetchListSound (is.foldl State.beginFetch s).port.list (is.foldl State.beginFetch s).entries onBus := by
  obtain ⟨hentry, -, hlist⟩ := State.beginFetches_spec is s hc.nodup fun i hi => ht.1 ▸ hc.lt i hi
  rw [hlist]
  refine hf.place (hc.nodup.sublist (List.take_sublist _ _)) ?_ (fun i hi => ?_) fun i => ?_
  · have hcapacity := hf.capacity
    have htaking : (s.taking is).length ≤ listCapacity - s.port.list.length := List.length_take_le _ _
    omega
  · exact ⟨hc.lt i (State.taking_subset s hi), hc.idle i (State.taking_subset s hi)⟩
  · have hi := hentry i
    rw [State.entry] at hi
    rw [hi]
    by_cases hm : i ∈ s.taking is
    · simp [hm, State.entry]
    · by_cases hm' : i ∈ is
      · have hidle := hc.idle i hm'
        simp [hm, hm', hidle, State.entry]
      · simp [hm, hm', State.entry]

end BeginFetches

/-! ## The end of an access (R56, R64, R65, R70 to R74) -/

/-- With the bus free the state is unsettled as soon as its parts are sound. -/
theorem State.unsettled_of_free {p : State} (hbus : p.port.bus = none) (ht : TableSound p.entries)
    (hs : SuspensionSound p.mode p.entries) (hf : FetchListSound p.port.list p.entries false) (hn : AwaitsNoAnswer p.host)
    (hi : p.beatAtChecker = none → p.checker = none) (hx : ∀ x, p.host = some x → p.hostPortOpen = true ∧ x.Presented) :
    p.Unsettled := by
  refine ⟨ht, hs, ?_, ?_, hi, hx⟩
  · rw [MemoryPort.fetches, hbus]
    exact hf
  · rw [hbus]
    exact .of_free hn

theorem AccessSound.awaitsNoAnswer_of_unwanted {host : Option Transaction} {head : Option FetchRequest} {a : Access}
    (h : AccessSound host head (some a)) (hn : a.owner ≠ .host true) : AwaitsNoAnswer host := by
  intro t ht hheld b hb hs
  simpa [hn] using h.atMemory t ht hheld b hb hs

theorem HostAnswer.error_fits (dir : Direction) : HostAnswer.error.fits dir = true := rfl

theorem answerOf_fits (op : BeatOp) (data : Word) : (answerOf op data).fits op.dir = true := by
  cases op <;> rfl

section End
variable {s : State} {a : Access} {wanted : Bool}

/-- The transaction whose access is on the bus. -/
theorem State.Examined.exists_atMemory (h : s.Examined) (hbus : s.port.bus = some a) (how : a.owner = .host true) :
    ∃ x b, s.host = some x ∧ x.held = none ∧ x.current = some b ∧ b.state = .atMemory ∧ b.addr = a.addr ∧ b.op = a.op := by
  obtain ⟨x, hx, hheld, b, hb, hs, haddr, hop⟩ := h.access.wanted a hbus how
  exact ⟨x, b, hx, hheld, hb, hs, haddr, hop⟩

/-- The transaction as its access ends with this answer, or as the answer is discarded. -/
theorem State.Examined.deliver (h : s.Examined) (hbus : s.port.bus = some a) (how : a.owner = .host wanted) {ans : HostAnswer}
    (hfits : ans.fits a.op.dir = true) :
    AwaitsNoAnswer (s.deliver wanted ans).host ∧ (s.deliver wanted ans).beatAtChecker = s.beatAtChecker ∧
      ∀ x, (s.deliver wanted ans).host = some x → s.hostPortOpen = true ∧ x.Sound := by
  cases wanted with
  | false =>
    have haccess := h.access
    rw [hbus] at haccess
    exact ⟨haccess.awaitsNoAnswer_of_unwanted (by simp [how]), rfl, h.host⟩
  | true =>
    obtain ⟨x, b, hx, -, hb, hs, -, hop⟩ := h.exists_atMemory hbus how
    have hhost : (s.deliver true ans).host = some { x with held := some ans } := by simp [State.deliver, hx]
    rw [hhost]
    refine ⟨awaitsNoAnswer_of_held rfl, ?_, fun y hy => ?_⟩
    · rw [State.beatAtChecker_of_state hhost hb (by simp [hs]), State.beatAtChecker_of_state hx hb (by simp [hs])]
    · cases hy
      obtain ⟨hopen, hsound⟩ := h.host x hx
      obtain ⟨hindex, haddr, hdir, hok⟩ := hsound.beat b hb
      refine ⟨hopen, hsound.answered, (fun hn => nomatch hb.symm.trans hn), fun c hc => ?_⟩
      cases hb.symm.trans hc
      refine ⟨hindex, haddr, hdir, ?_⟩
      simp only [Beat.answerSound, hs, Bool.and_eq_true, decide_eq_true_eq] at hok ⊢
      exact ⟨hok.1, by rw [hop]; exact hfits⟩

/-- A host access has ended: the parts that it leaves. -/
theorem State.Examined.hostEnded (h : s.Examined) (hbus : s.port.bus = some a) (how : a.owner = .host wanted) {ans : HostAnswer}
    (hfits : ans.fits a.op.dir = true) {p : State} (hfree : p.port.bus = none) (hhost : p.host = (s.deliver wanted ans).host)
    (hchecker : p.checker = s.checker) (hopen : p.hostPortOpen = s.hostPortOpen) (ht : TableSound p.entries)
    (hs : SuspensionSound p.mode p.entries) (hf : FetchListSound p.port.list p.entries false) : p.Unsettled := by
  obtain ⟨hawaits, hbeat, hsound⟩ := h.deliver hbus how hfits
  refine State.unsettled_of_free hfree ht hs hf (hhost ▸ hawaits) (fun hn => ?_) fun x hx => ?_
  · rw [hchecker]
    exact h.hold.1 (hbeat.symm.trans ((State.beatAtChecker_congr hhost).symm.trans hn))
  · rw [hopen]
    exact (hsound x (hhost.symm.trans hx)).imp_right Transaction.Sound.presented

/-- An access of no beat has ended: the parts that it leaves. -/
theorem State.Examined.otherEnded (h : s.Examined) (hbus : s.port.bus = some a) (how : a.owner ≠ .host true) {p : State}
    (hfree : p.port.bus = none) (hhost : p.host = s.host) (hchecker : p.checker = s.checker)
    (hopen : p.hostPortOpen = s.hostPortOpen) (ht : TableSound p.entries)
    (hs : SuspensionSound p.mode p.entries) (hf : FetchListSound p.port.list p.entries false) : p.Unsettled := by
  have haccess := h.access
  rw [hbus] at haccess
  refine State.unsettled_of_free hfree ht hs hf (hhost ▸ haccess.awaitsNoAnswer_of_unwanted how) (fun hn => ?_) fun x hx => ?_
  · rw [hchecker]
    exact h.hold.1 ((State.beatAtChecker_congr hhost).symm.trans hn)
  · rw [hopen]
    exact (h.host x (hhost.symm.trans hx)).imp_right Transaction.Sound.presented

theorem State.Examined.fetch_off (h : s.Examined) (hbus : s.port.bus = some a) (how : a.owner ≠ .fetch) :
    FetchListSound s.port.list s.entries false := by
  have hfetch := h.fetch
  have hfetches : s.port.fetches = false := by simp [MemoryPort.fetches, hbus, how]
  rwa [hfetches] at hfetch

theorem State.Examined.fetch_on (h : s.Examined) (hbus : s.port.bus = some a) (how : a.owner = .fetch) :
    FetchListSound s.port.list s.entries true := by
  have hfetch := h.fetch
  rwa [s.port.fetches_iff.mpr ⟨a, hbus, how⟩] at hfetch

/-! ### A host access -/

/-- The entries that return to fetch after a failed write (R20, R71). -/
def State.returning (s : State) (w : Addr) (op : BeatOp) : List Nat :=
  match op with
  | .read => []
  | .write _ _ => indexesOf (fun e => e.shadowsWord w) s.entries

theorem State.returnToFetch_eq (s : State) (w : Addr) (op : BeatOp) :
    s.returnToFetch w op = (s.returning w op).foldl State.beginFetch s := by
  cases op <;> rfl

theorem State.returning_sorted (s : State) (w : Addr) (op : BeatOp) : (s.returning w op).Pairwise (· < ·) := by
  cases op
  · exact .nil
  · exact indexesOf_sorted _ _

theorem State.mem_returning {w : Addr} {op : BeatOp} {i : Nat} :
    i ∈ s.returning w op ↔ op.dir = .write ∧ i < s.entries.length ∧ (s.entry i).shadowBearing = true ∧
      (s.entry i).state = .armed ∧ (s.entry i).base = w := by
  cases op with
  | read => simp [State.returning, BeatOp.dir]
  | write => simp [State.returning, BeatOp.dir, mem_indexesOf, Entry.shadowsWord_iff, State.entry]

theorem State.returning_canFetch (ht : TableSound s.entries) (w : Addr) (op : BeatOp) : CanFetch s.entries (s.returning w op) := by
  refine ⟨(s.returning_sorted w op).imp Nat.ne_of_lt, fun i hi => ?_, fun i hi => ?_, fun i hi => ?_⟩
  all_goals obtain ⟨-, hlt, hb, hs, -⟩ := State.mem_returning.mp hi
  · exact ht.1 ▸ hlt
  · exact hb
  · exact fun hf => nomatch hs.symm.trans hf

theorem State.returning_of_suspended (h : SuspensionSound s.mode s.entries) (hm : s.mode = .suspended) (w : Addr) (op : BeatOp) :
    s.returning w op = [] := by
  refine List.eq_nil_iff_forall_not_mem.mpr fun i hi => ?_
  obtain ⟨-, -, hb, hs, -⟩ := State.mem_returning.mp hi
  exact (h.entry hm i hb).1 hs

/-- The state with its bus free. -/
def State.busFreed (s : State) : State := { s with port := { s.port with bus := none } }

/-- A host access that failed, before its word's entries return to fetch. -/
def State.failed (s : State) (wanted : Bool) (kind : EventKind) (w : Addr) (op : BeatOp) : State :=
  (s.deliver wanted .error).raise [s.partEvent kind (some w) (some op.detail)]

theorem State.failed_frame (s : State) (wanted : Bool) (kind : EventKind) (w : Addr) (op : BeatOp) :
    s.failed wanted kind w op =
      { s with host := (s.deliver wanted .error).host, queue := (s.failed wanted kind w op).queue
               alerts := (s.failed wanted kind w op).alerts } := by
  rw [State.failed, State.raise_frame, State.deliver_frame]

theorem State.failHost_eq (s : State) (wanted : Bool) (kind : EventKind) (w : Addr) (op : BeatOp) :
    s.failHost wanted kind w op = ((s.failed wanted kind w op).returning w op).foldl State.beginFetch (s.failed wanted kind w op) :=
  State.returnToFetch_eq _ _ _

theorem State.beginFetches_suspension {is : List Nat} (hs : SuspensionSound s.mode s.entries) (hn : s.mode = .suspended → is = []) :
    SuspensionSound (is.foldl State.beginFetch s).mode (is.foldl State.beginFetch s).entries := by
  have hmode : (is.foldl State.beginFetch s).mode = s.mode := by rw [State.beginFetches_frame]
  intro hm
  have hsuspended := hmode.symm.trans hm
  rw [hn hsuspended]
  exact hs hsuspended

theorem State.Examined.failHost_unsettled (h : s.Examined) (hbus : s.port.bus = some a) (how : a.owner = .host wanted)
    (kind : EventKind) : (s.busFreed.failHost wanted kind a.addr a.op).Unsettled := by
  have hframe := s.busFreed.failed_frame wanted kind a.addr a.op
  rw [State.failHost_eq]
  generalize s.busFreed.failed wanted kind a.addr a.op = v at hframe
  have hentries : v.entries = s.entries := by rw [hframe]; rfl
  have hlist : v.port.list = s.port.list := by rw [hframe]; rfl
  have hmode : v.mode = s.mode := by rw [hframe]; rfl
  have ht : TableSound v.entries := hentries ▸ h.table
  have hc := State.returning_canFetch ht a.addr a.op
  have hs : SuspensionSound v.mode v.entries := by rw [hmode, hentries]; exact h.suspension
  have hf : FetchListSound v.port.list v.entries false := by
    rw [hlist, hentries]
    exact h.fetch_off hbus (by simp [how])
  refine h.hostEnded hbus how (HostAnswer.error_fits _) ?_ ?_ ?_ ?_ (State.beginFetches_table ht hc)
    (State.beginFetches_suspension hs fun hm => State.returning_of_suspended hs hm _ _) (State.beginFetches_fetch ht hf hc)
  all_goals rw [State.beginFetches_frame, hframe]
  · rfl
  · cases wanted <;> rfl
  · rfl
  · rfl

/-- R47 to R51: a host access that completed. -/
theorem State.Examined.complete_unsettled (h : s.Examined) (hbus : s.port.bus = some a) (how : a.owner = .host wanted)
    (data : Word) : ((s.busFreed.complete a.addr a.op data).deliver wanted (answerOf a.op data)).Unsettled := by
  have hr := completed_sameRoles h.table.2 s.mode a.addr a.op data
  have ht := h.table.mapFrom (f := fun e => e.completed s.mode a.addr a.op data) fun e he => Entry.completed_sound he _ _ _ _
  refine h.hostEnded hbus how (answerOf_fits a.op data) ?_ ?_ ?_ ?_ ?_ ?_ ?_
  all_goals rw [State.deliver_frame, State.complete, State.raise_frame]
  · rfl
  · cases wanted <;> rfl
  · rfl
  · rfl
  · exact ht
  · exact h.suspension.sameRoles h.table hr
  · exact (h.fetch_off hbus (by simp [how])).sameRoles hr

/-! ### A fetch of the list -/

/-- What the outcome of a fetch leaves of its entry. -/
def Entry.fetched (e : Entry) : AccessEnd → Entry
  | .completion data => e.armedWith data
  | .memoryError | .responseLimit => e.restarted .loaded

theorem Entry.fetched_desc (e : Entry) (r : AccessEnd) : (e.fetched r).desc = e.desc := by cases r <;> rfl

theorem Entry.fetched_state (e : Entry) (r : AccessEnd) : (e.fetched r).state = .armed ∨ (e.fetched r).state = .loaded := by
  cases r
  · exact .inl rfl
  · exact .inr rfl
  · exact .inr rfl

theorem Entry.fetched_sound {e : Entry} (h : e.sound = true) (hs : e.state = .fetching) (r : AccessEnd) : (e.fetched r).sound = true := by
  cases r with
  | completion data => exact Entry.armedWith_sound h (Entry.sound.bearing_of_waiting h (by rw [hs]; rfl)) data
  | memoryError => exact Entry.restarted_loaded_sound h (by simp [hs])
  | responseLimit => exact Entry.restarted_loaded_sound h (by simp [hs])

/-- The state as the ISSUED request of the list ends. -/
theorem State.endFetch_eq {q : FetchRequest} {rest : List FetchRequest} (hl : s.port.list = q :: rest) (r : AccessEnd) :
    s.endFetch r = { s with
      entries := if q.orphaned then s.entries else s.entries.set q.entry ((s.entry q.entry).fetched r)
      port := { s.port with list := rest }, queue := (s.endFetch r).queue, alerts := (s.endFetch r).alerts } := by
  cases ho : q.orphaned with
  | true => rw [State.endFetch_of_orphaned hl ho]; rfl
  | false =>
    cases r
    · rw [State.endFetch_completed hl ho]; rfl
    · rw [State.endFetch_memoryError hl ho, State.failFetch, State.raise_frame]; rfl
    · rw [State.endFetch_responseLimit hl ho, State.failFetch, State.raise_frame]; rfl

theorem State.Examined.fetch_monitoring (h : s.Examined) {i : Nat} (hf : (s.entry i).state = .fetching) : s.mode = .monitoring := by
  cases hm : s.mode with
  | monitoring => rfl
  | suspended =>
    have hb := Entry.sound.bearing_of_waiting (h.table.entry i) (by rw [← State.entry, hf]; rfl)
    exact absurd hf (h.suspension.entry hm i hb).2

theorem State.Examined.endFetch_unsettled (h : s.Examined) (hbus : s.port.bus = some a) (how : a.owner = .fetch) (r : AccessEnd) :
    (s.busFreed.endFetch r).Unsettled := by
  have hfetch := h.fetch_on hbus how
  obtain ⟨q, rest, hl, -⟩ := hfetch.exists_issued
  rw [hl] at hfetch
  have hother : a.owner ≠ .host true := by simp [how]
  rw [State.endFetch_eq (s := s.busFreed) hl]
  cases ho : q.orphaned with
  | true =>
    refine h.otherEnded hbus hother rfl rfl rfl rfl ?_ ?_ ?_
    · exact h.table
    · exact h.suspension
    · exact hfetch.drop_head (fs := s.entries) (fun i => by simp [ho]) fun _ => rfl
  | false =>
    have hfetching : (s.entry q.entry).state = .fetching := hfetch.fetching List.mem_cons_self ho
    have hlt : q.entry < s.entries.length := h.table.1 ▸ hfetch.entries q List.mem_cons_self
    have hmode := h.fetch_monitoring hfetching
    refine h.otherEnded hbus hother rfl rfl rfl rfl ?_ ?_ ?_
    · exact h.table.set _ (Entry.fetched_sound (h.table.entry q.entry) hfetching r)
    · exact fun hm => nomatch hmode.symm.trans hm
    · refine hfetch.drop_head (fs := s.entries.set q.entry ((s.entry q.entry).fetched r)) (fun i => ?_) fun i => ?_
      all_goals
        rw [entryAt_set_of_lt hlt]
        by_cases hi : q.entry = i
      · subst hi
        rcases (s.entry q.entry).fetched_state r with hs | hs <;> simp [hs, ho]
      · simp [ho, hi, Ne.symm hi]
      · subst hi
        rw [if_pos rfl]
        exact Entry.fetched_desc _ r
      · rw [if_neg hi]

/-- The end of an access leaves a state to settle. -/
theorem State.Examined.afterAccess_unsettled (h : s.Examined) (hbus : s.port.bus = some a) (r : AccessEnd) :
    (s.afterAccess a r).Unsettled := by
  cases how : a.owner with
  | host wanted =>
    simp only [State.afterAccess, how]
    cases r with
    | completion data => exact h.complete_unsettled hbus how data
    | memoryError => exact h.failHost_unsettled hbus how .memoryError
    | responseLimit => exact h.failHost_unsettled hbus how .memoryTimeout
  | fetch =>
    simp only [State.afterAccess, how]
    exact h.endFetch_unsettled hbus how r
  | strayFetch =>
    simp only [State.afterAccess, how]
    exact h.otherEnded hbus (by simp [how]) rfl rfl rfl rfl h.table h.suspension (h.fetch_off hbus (by simp [how]))

end End

end Sys2Proof.Machine
end

section
/-! Every step keeps traffic sound: the answer given, resets, beats taken, ticks, and the requests that change the table. -/

namespace Sys2Proof.Machine

/-! ## What traffic does not depend on -/

/-- Traffic is that of the mode, the table, the checker, the transaction and the memory port; the host port may open. -/
theorem State.trafficSound.congr {s t : State} (h : s.trafficSound) (hmode : t.mode = s.mode) (hentries : t.entries = s.entries)
    (hchecker : t.checker = s.checker) (hhost : t.host = s.host) (hport : t.port = s.port)
    (hopen : ∀ x, s.host = some x → s.hostPortOpen = true → t.hostPortOpen = true) : t.trafficSound := by
  obtain ⟨power, pins, mode, entries, checker, host, port, time, queue, alerts, link, out, idles, pending⟩ := t
  dsimp only at hmode hentries hchecker hhost hport
  subst hmode hentries hchecker hhost hport
  obtain ⟨h1, h2, h3, h4, h5, h6, h7, h8⟩ := h
  refine ⟨h1, h2, h3, h4, h5, h6, h7, fun x hx => ?_⟩
  obtain ⟨hwas, hrest⟩ := h8 x hx
  exact ⟨hopen x hx hwas, hrest⟩

/-- A table in the same roles serves as well. -/
theorem State.trafficSound.sameRoles {s : State} (h : s.trafficSound) {es : List Entry} (hes : TableSound es)
    (hr : SameRoles s.entries es) : State.trafficSound { s with entries := es } := by
  have hx := h.examined
  refine (State.trafficSound_iff _).mpr ⟨⟨hes, hx.suspension.sameRoles hx.table hr, hx.fetch.sameRoles hr, hx.access,
    ⟨hx.hold.1, fun b hb => ?_⟩, hx.host⟩, h.arbiter, fun hm hfree => ?_⟩
  · obtain ⟨hm, hblocking, hchecker, hlist⟩ := hx.hold.2 b hb
    show _ ∧ blockingOf es _ _ ≠ [] ∧ _ = some (Decision.mk (coveringOf es _ _) (blockingOf es _ _)) ∧ _ = promoted (blockingOf es _ _) _
    rw [← hr.coverage.coveringOf, ← hr.coverage.blockingOf]
    exact ⟨hm, hblocking, hchecker, hlist⟩
  · refine (forall_mem_iff_entryAt (p := fun e => e.state ≠ .pending) nofun).mpr fun i hi => ?_
    exact (forall_mem_iff_entryAt (p := fun e => e.state ≠ .pending) nofun).mp (h.room hm hfree) i
      ((EntryState.pending_of_role (hr.role i)).mpr hi)

namespace State.trafficSound
variable {s : State}

/-! ## Ticks (R107, R111) -/

theorem tickOnce (h : s.trafficSound) (order : TickOrder) : (s.tickOnce order).trafficSound := by
  have hticked : State.trafficSound { s with entries := s.countTick.tickEntries } := by
    unfold State.tickEntries
    split
    · exact h.sameRoles (h.examined.table.mapFrom fun e he => Entry.ticked_sound he _) (ticked_sameRoles _ _)
    · exact h
  rw [State.tickOnce_frame]
  exact hticked.congr rfl rfl rfl rfl rfl fun _ _ => id

theorem sourcePeriod (h : s.trafficSound) (order : TickOrder) : (s.sourcePeriod order).trafficSound := by
  unfold State.sourcePeriod
  split
  · exact h.tickOnce order
  · exact h.congr rfl rfl rfl rfl rfl fun _ _ => id

theorem gapExpires (h : s.trafficSound) : s.gapExpires.trafficSound := by
  rw [State.gapExpires_frame]
  exact h.congr rfl rfl rfl rfl rfl fun _ _ => id

theorem refclkEdge (h : s.trafficSound) (order : TickOrder) : (s.refclkEdge order).trafficSound := by
  have hedge : State.trafficSound { s with time := s.time.edge } := h.congr rfl rfl rfl rfl rfl fun _ _ => id
  unfold State.refclkEdge
  dsimp only
  split
  · exact hedge.sourcePeriod order
  · exact hedge

theorem ircPeriod (h : s.trafficSound) (order : TickOrder) : (s.ircPeriod order).trafficSound := by
  rw [State.ircPeriod_eq, State.countGap_frame]
  split
  · exact (h.sourcePeriod order).congr rfl rfl rfl rfl rfl fun _ _ => id
  · exact h.congr rfl rfl rfl rfl rfl fun _ _ => id

/-! ## The transaction replaced -/

/-- With no beat at checker or memory the transaction may become another without a beat there and without one that waits. -/
theorem withHost (h : s.trafficSound) (hb : s.beatAtChecker = none) (hn : AwaitsNoAnswer s.host) {host : Option Transaction}
    (hn' : AwaitsNoAnswer host) (hb' : State.beatAtChecker { s with host := host } = none)
    (hw' : State.waitingBeat { s with host := host } = none)
    (hx : ∀ x, host = some x → s.hostPortOpen = true ∧ x.Sound) : State.trafficSound { s with host := host } := by
  have he := h.examined
  refine (State.trafficSound_iff _).mpr ⟨⟨he.table, he.suspension, he.fetch, he.access.of_host hn hn',
    State.holdSound_of_none hb' (he.hold.1 hb), hx⟩, fun hbus => ⟨(h.arbiter hbus).1, hw'⟩, h.room⟩

/-- A beat presented to the checker is to be settled. -/
theorem presented (h : s.trafficSound) (hb : s.beatAtChecker = none) (hn : AwaitsNoAnswer s.host) {host : Option Transaction}
    (hn' : AwaitsNoAnswer host) (hx : ∀ x, host = some x → s.hostPortOpen = true ∧ x.Presented) :
    State.Unsettled { s with host := host } := by
  have he := h.examined
  exact ⟨he.table, he.suspension, he.fetch, he.access.of_host hn hn', fun _ => he.hold.1 hb, hx⟩

/-! ## The answer given (R83) -/

theorem beatAtChecker_of_held (h : s.trafficSound) {a : HostAnswer} {x : Transaction} (hx : s.host = some x)
    (ha : x.held = some a) : s.beatAtChecker = none := by
  refine Option.eq_none_iff_forall_ne_some.mpr fun b hb => ?_
  obtain ⟨y, hp⟩ := State.beatAtChecker_iff.mp hb
  have hnone := hp.held_none (h.unsettled.host y hp.host).2
  cases hx.symm.trans hp.host
  cases ha.symm.trans hnone

theorem giveAnswer (h : s.trafficSound) : s.giveAnswer.trafficSound := by
  cases hopen : s.hostPortOpen with
  | false => rwa [State.giveAnswer_of_closed hopen]
  | true =>
    cases hx : s.host with
    | none => rwa [State.giveAnswer_of_none (by simp [State.heldAnswer, hx])]
    | some x =>
      cases ha : x.held with
      | none => rwa [State.giveAnswer_of_none (by simp [State.heldAnswer, hx, ha])]
      | some a =>
        rw [State.giveAnswer_eq hx ha hopen]
        have hsound := (h.examined.host x hx).2
        have hgiven : State.trafficSound { s with host := x.afterAnswer } := by
          refine h.withHost (h.beatAtChecker_of_held hx ha) (hx ▸ awaitsNoAnswer_of_held ha) ?_ ?_ ?_ fun y hy => ⟨hopen, ?_⟩
          all_goals unfold Transaction.afterAnswer at *
          · split
            · exact awaitsNoAnswer_none
            · exact awaitsNoAnswer_of_idle rfl
          · split
            · rfl
            · rfl
          · split
            · rfl
            · rfl
          · split at hy
            · cases hy
            · next hmore =>
              cases hy
              exact Transaction.soundWith_of_idle (Nat.lt_of_le_of_ne hsound.answered hmore) rfl rfl
        exact hgiven.congr rfl rfl rfl rfl rfl fun _ _ => id

theorem quiet (h : s.trafficSound) : s.quiet.trafficSound := h.congr rfl rfl rfl rfl rfl fun _ _ => id

theorem answered (h : s.trafficSound) : s.answered.trafficSound := by
  rw [← State.atBclk_eq]
  exact h.quiet.giveAnswer

/-! ## A beat taken (R78, R79, R84, R85) -/

end State.trafficSound

/-- The transaction waits for its next beat, and so does the host port in this state. -/
structure State.Awaits (s : State) (x : Transaction) : Prop where
  current : x.current = none
  held : x.held = none
  answered : x.answered < x.len.beats
  host : s.host = none ∨ s.host = some x

theorem Transaction.beats_pos (len : BurstLength) : 0 < len.beats := by cases len <;> decide

/-- A beat offered is one of a transaction that waits for it. -/
theorem awaits_of_beatOffered {s : State} {c : Instr} {x : Transaction} {data : Word} {strobes : Lanes} (h : s.trafficSound)
    (hb : beatOffered c s = some (x, data, strobes)) (ho : s.hostPortOpen = true) : s.answered.Awaits x := by
  have hhost := State.answered_host_of_open ho
  unfold beatOffered at hb
  split at hb
  · split at hb
    · next hnone =>
      cases hb
      exact ⟨rfl, rfl, Transaction.beats_pos _, .inl (hhost.trans (Option.isNone_iff_eq_none.mp hnone))⟩
    · cases hb
  · split at hb
    · cases hb
    · next y hy =>
      split at hb
      · next hcurrent =>
        cases hb
        have hx := hhost.trans hy
        have hsound := (h.answered.examined.host x hx).2
        have hnone := Option.isNone_iff_eq_none.mp hcurrent
        exact ⟨hnone, hsound.idle hnone, hsound.answered, .inr hx⟩
      · cases hb
  · cases hb

namespace State.Awaits
variable {s : State} {x : Transaction}

theorem beatAtChecker (h : s.Awaits x) : s.beatAtChecker = none := by
  rcases h.host with hx | hx
  · exact State.beatAtChecker_of_no_host hx
  · exact State.beatAtChecker_of_idle hx h.current

theorem awaitsNoAnswer (h : s.Awaits x) : AwaitsNoAnswer s.host := by
  rcases h.host with hx | hx <;> rw [hx]
  · exact awaitsNoAnswer_none
  · exact awaitsNoAnswer_of_idle h.current

end State.Awaits

/-- The transaction with its next beat taken. -/
def Transaction.taking (x : Transaction) (data : Word) (strobes : Lanes) : Transaction :=
  { x with current := some (x.nextBeat data strobes), held := none }

theorem beatOp_dir (dir : Direction) (data : Word) (strobes : Lanes) : (beatOp dir data strobes).dir = dir := by
  cases dir <;> rfl

section Take
variable {s : State} {x : Transaction}

theorem State.takeBeat_normal (hc : x.course = .normal) (data : Word) (strobes : Lanes) :
    s.takeBeat x data strobes = State.settle { s with host := some (x.taking data strobes) } := by
  simp only [State.takeBeat, hc, Transaction.taking]

theorem State.takeBeat_other (hc : x.course ≠ .normal) (data : Word) (strobes : Lanes) :
    s.takeBeat x data strobes = { s with host := some { x.taking data strobes with held := some .error } } := by
  unfold State.takeBeat
  cases hcourse : x.course
  · exact absurd hcourse hc
  all_goals simp [State.hold, Transaction.taking, hcourse]

theorem State.trafficSound.taken_unsettled (h : s.trafficSound) (ho : s.hostPortOpen = true) (ha : s.Awaits x)
    (hc : x.course = .normal) (data : Word) (strobes : Lanes) :
    State.Unsettled { s with host := some (x.taking data strobes) } := by
  refine h.presented ha.beatAtChecker ha.awaitsNoAnswer (awaitsNoAnswer_of_current rfl nofun) fun y hy => ?_
  cases hy
  refine ⟨ho, ha.answered, nofun, fun b hb => ?_⟩
  cases hb
  exact ⟨rfl, rfl, beatOp_dir _ _ _, .inr ⟨rfl, hc, rfl⟩⟩

theorem State.trafficSound.takeBeat (h : s.trafficSound) (ho : s.hostPortOpen = true) (ha : s.Awaits x) (data : Word)
    (strobes : Lanes) : (s.takeBeat x data strobes).trafficSound := by
  by_cases hc : x.course = .normal
  · rw [State.takeBeat_normal hc]
    exact (h.taken_unsettled ho ha hc data strobes).settle
  · rw [State.takeBeat_other hc]
    refine h.withHost ha.beatAtChecker ha.awaitsNoAnswer (awaitsNoAnswer_of_held rfl) ?_ ?_ fun y hy => ?_
    · refine Option.eq_none_iff_forall_ne_some.mpr fun b hb => ?_
      obtain ⟨y, hp⟩ := State.beatAtChecker_iff.mp hb
      cases hp.host
      exact hc hp.course
    · refine Option.eq_none_iff_forall_ne_some.mpr fun b hb => ?_
      obtain ⟨y, hy, hcurrent, hs⟩ := State.waitingBeat_iff.mp hb
      cases hy
      cases hcurrent
      cases hs
    · cases hy
      refine ⟨ho, ha.answered, nofun, fun b hb => ?_⟩
      cases hb
      exact ⟨rfl, rfl, beatOp_dir _ _ _, decide_eq_true ⟨hc, rfl⟩⟩

end Take

end Sys2Proof.Machine
end

section
/-! Every step keeps traffic sound (continued): the resets and the requests that change the table, and the step as a whole. -/

namespace Sys2Proof.Machine

/-! ## Resets -/

/-- The blocks as a supervisor reset puts them, before the beat that is held is decided. -/
def State.blocksReset (s : State) : State :=
  { s with
    mode := .monitoring
    entries := resetEntries
    port := ⟨[], s.port.bus.map Access.afterSupervisorReset, none⟩
    queue := .reset
    alerts := .reset }

theorem State.supervisorReset_eq (s : State) : s.supervisorReset = s.blocksReset.settle := rfl

theorem Access.afterSupervisorReset_host (a : Access) {wanted : Bool} :
    a.afterSupervisorReset.owner = .host wanted ↔ a.owner = .host wanted := by
  unfold Access.afterSupervisorReset
  split <;> simp_all

theorem Access.afterSupervisorReset_eq_of_host {a : Access} {wanted : Bool} (h : a.owner = .host wanted) :
    a.afterSupervisorReset = a := by
  simp [Access.afterSupervisorReset, h]

/-- After a supervisor reset no fetch has its request in the list (R62, R74). -/
theorem Access.afterSupervisorReset_fetch (a : Access) :
    a.afterSupervisorReset.owner ≠ .fetch ∧ (a.afterSupervisorReset.owner = .strayFetch → a.owner = .fetch ∨ a.owner = .strayFetch) ∧
      a.afterSupervisorReset.op = a.op ∧ a.afterSupervisorReset.period = a.period := by
  unfold Access.afterSupervisorReset
  split <;> simp_all

theorem AccessSound.afterSupervisorReset {host : Option Transaction} {head : Option FetchRequest} {bus : Option Access}
    (h : AccessSound host head bus) : AccessSound host none (bus.map Access.afterSupervisorReset) := by
  cases bus with
  | none => exact .of_free h.awaitsNoAnswer_of_free
  | some a =>
    obtain ⟨hfetch, hstray, hop, hperiod⟩ := a.afterSupervisorReset_fetch
    refine ⟨fun c hc how => ?_, fun t ht hheld b hb hs => ?_, fun c hc how => ?_, fun c hc how => ?_, fun c hc => ?_⟩
    · cases hc
      have howner := a.afterSupervisorReset_host.mp how
      rw [Access.afterSupervisorReset_eq_of_host howner]
      exact h.wanted a rfl howner
    · have howner : a.owner = .host true := by simpa using h.atMemory t ht hheld b hb hs
      simp [Access.afterSupervisorReset_host, howner]
    · cases hc
      exact absurd how hfetch
    · cases hc
      rw [hop]
      exact h.reads a rfl (hstray (how.resolve_left hfetch))
    · cases hc
      rw [hperiod]
      exact h.period a rfl

theorem State.trafficSound.blocksReset {s : State} (h : s.trafficSound) : s.blocksReset.Unsettled := by
  have he := h.unsettled
  refine ⟨resetEntries_sound, suspensionSound_monitoring _, ?_, he.access.afterSupervisorReset, he.idle, he.host⟩
  have hfetches : s.blocksReset.port.fetches = false := by
    simp only [MemoryPort.fetches, State.blocksReset]
    cases s.port.bus with
    | none => rfl
    | some a => simp [a.afterSupervisorReset_fetch.1]
  rw [hfetches]
  exact .of_nil fun i => by
    show (entryAt resetEntries i).state ≠ _
    rw [entryAt_resetEntries]
    exact nofun

theorem State.trafficSound.supervisorReset {s : State} (h : s.trafficSound) : s.supervisorReset.trafficSound := by
  rw [State.supervisorReset_eq]
  exact h.blocksReset.settle

theorem State.hostPortOpen_iff (s : State) : s.hostPortOpen = true ↔ s.power = .running ∧ s.pins.hrstnLow = false := by
  simp [State.hostPortOpen]

theorem State.trafficSound.takeSrstnFall {s : State} (h : s.trafficSound) : s.takeSrstnFall.trafficSound := by
  cases hp : s.power with
  | powerUpReset => simpa [State.takeSrstnFall, hp] using h
  | initialising n =>
    simp only [State.takeSrstnFall, hp]
    refine h.congr rfl rfl rfl rfl rfl fun _ _ hopen => ?_
    cases hp.symm.trans (s.hostPortOpen_iff.mp hopen).1
  | running =>
    rw [State.takeSrstnFall_of_running hp]
    refine h.supervisorReset.congr rfl rfl rfl rfl rfl fun _ _ hopen => ?_
    rw [State.supervisorReset_frame, State.hostPortOpen_iff] at hopen
    rw [State.supervisorReset_frame, State.hostPortOpen_iff]
    exact hopen

theorem AccessSound.afterHostReset {host : Option Transaction} {head : Option FetchRequest} {bus : Option Access}
    (h : AccessSound host head bus) : AccessSound none head (bus.map Access.afterHostReset) := by
  cases bus with
  | none => exact .of_free awaitsNoAnswer_none
  | some a =>
    have hafter : a.afterHostReset.owner ≠ .host true ∧ (a.afterHostReset.owner = .fetch → a.owner = .fetch) ∧
        (a.afterHostReset.owner = .strayFetch → a.owner = .strayFetch) ∧ a.afterHostReset.addr = a.addr ∧
        a.afterHostReset.op = a.op ∧ a.afterHostReset.period = a.period := by
      unfold Access.afterHostReset
      split <;> simp_all
    obtain ⟨hwanted, hfetch, hstray, haddr, hop, hperiod⟩ := hafter
    refine ⟨fun c hc how => ?_, nofun, fun c hc how => ?_, fun c hc how => ?_, fun c hc => ?_⟩ <;> cases hc
    · exact absurd how hwanted
    · rw [haddr]
      exact h.fetch a rfl (hfetch how)
    · rw [hop]
      exact h.reads a rfl (how.imp hfetch hstray)
    · rw [hperiod]
      exact h.period a rfl

theorem MemoryPort.fetches_afterHostReset (p : MemoryPort) (l : List FetchRequest) (g : Option GrantKind) :
    MemoryPort.fetches ⟨l, p.bus.map Access.afterHostReset, g⟩ = p.fetches := by
  unfold MemoryPort.fetches
  cases p.bus with
  | none => rfl
  | some a =>
    unfold Access.afterHostReset
    cases how : a.owner <;> simp [how]

theorem State.trafficSound.hostResetTaken {s : State} (h : s.trafficSound) : s.hostResetTaken.trafficSound := by
  have he := h.examined
  rw [State.hostResetTaken_frame, State.trafficSound_iff]
  refine ⟨⟨he.table, he.suspension, ?_, he.access.afterHostReset, State.holdSound_of_none rfl rfl, nofun⟩, fun hbus => ?_, h.room⟩
  · rw [MemoryPort.fetches_afterHostReset]
    exact he.fetch
  · exact ⟨(h.arbiter (Option.map_eq_none_iff.mp hbus)).1, rfl⟩

theorem State.trafficSound.takeHrstnFall {s : State} (h : s.trafficSound) : s.takeHrstnFall.trafficSound := by
  cases hp : s.power with
  | powerUpReset => simpa [State.takeHrstnFall, hp] using h
  | initialising n =>
    simp only [State.takeHrstnFall, hp]
    refine h.congr rfl rfl rfl rfl rfl fun _ _ hopen => ?_
    cases hp.symm.trans (s.hostPortOpen_iff.mp hopen).1
  | running =>
    rw [State.takeHrstnFall_of_running hp]
    exact h.hostResetTaken.congr rfl rfl rfl rfl rfl fun x hx => nomatch hx

/-! ## Entries without a beat or a fetch -/

section Entries
variable {s : State} {i : Nat} {f : Entry}

theorem Entry.covers_of_unwatched {e : Entry} (h : e.state.watching = false) (addr : Addr) (dir : Direction) :
    e.covers addr dir = false := by
  rw [Entry.covers, h, Bool.false_and]

theorem Entry.blocks_of_unwatched {e : Entry} (h : e.state.watching = false) (addr : Addr) (dir : Direction) :
    e.blocks addr dir = false := by
  rw [Entry.blocks, Entry.covers_of_unwatched h, Bool.and_false]

theorem EntryState.not_waiting_of_unwatched {st : EntryState} (h : st.watching = false) : st ≠ .pending ∧ st ≠ .fetching := by
  cases st <;> simp_all [EntryState.watching]

theorem State.Examined.index_lt (h : s.Examined) (hi : i < entryCount) : i < s.entries.length := h.table.1.symm ▸ hi

/-- An entry that watches nothing may become another that watches nothing. -/
theorem State.trafficSound.setUnwatched (h : s.trafficSound) (hi : i < entryCount) (hs : (s.entry i).state.watching = false)
    (hf : f.sound = true) (hfs : f.state.watching = false) : (s.setEntry i f).trafficSound := by
  have he := h.examined
  have hentry := entryAt_set_of_lt (he.index_lt hi) f
  have hwas := EntryState.not_waiting_of_unwatched hs
  have his := EntryState.not_waiting_of_unwatched hfs
  have hcoverage : SameCoverage s.entries (s.entries.set i f) := by
    refine ⟨(List.length_set ..).symm, fun j addr dir => ?_, fun j addr dir => ?_⟩
    all_goals
      rw [hentry]
      split
      · next hij =>
        subst hij
        rw [State.entry] at hs
        simp only [Entry.covers_of_unwatched, Entry.blocks_of_unwatched, hs, hfs]
      · rfl
  refine (State.trafficSound_iff _).mpr ⟨⟨he.table.set i hf, suspensionSound_of_entry fun hm j hb => ?_, ?_, he.access,
    ⟨he.hold.1, fun b hb => ?_⟩, he.host⟩, h.arbiter, fun hm hfree => ?_⟩
  · rw [State.setEntry_entries, hentry] at hb ⊢
    split at hb
    · next hij =>
      rw [if_pos hij]
      refine ⟨?_, his.2⟩
      rintro ha
      rw [ha] at hfs
      cases hfs
    · next hij => rw [if_neg hij]; exact he.suspension.entry hm j hb
  · refine he.fetch.congr (fs := s.entries.set i f) (fun j => ?_) fun j hj => ?_
    · rw [hentry]
      split
      · next hij => subst hij; exact iff_of_false hwas.2 his.2
      · rfl
    · rw [hentry, if_neg]
      rintro rfl
      exact hwas.2 hj
  · obtain ⟨hm, hblocking, hchecker, hlist⟩ := he.hold.2 b hb
    rw [State.setEntry_entries, ← hcoverage.coveringOf, ← hcoverage.blockingOf]
    exact ⟨hm, hblocking, hchecker, hlist⟩
  · refine (forall_mem_iff_entryAt (p := fun e => e.state ≠ .pending) nofun).mpr fun j => ?_
    rw [State.setEntry_entries, hentry]
    split
    · exact his.1
    · exact (forall_mem_iff_entryAt (p := fun e => e.state ≠ .pending) nofun).mp (h.room hm hfree) j

/-- An entry outside FETCHING may change its state and runtime fields, short of entering FETCHING. -/
theorem State.Examined.setIdle (h : s.Examined) (hi : i < entryCount) (hs : (s.entry i).state ≠ .fetching) (hf : f.sound = true)
    (hfs : f.state ≠ .fetching) (hdesc : f.desc = (s.entry i).desc)
    (hsuspended : s.mode = .suspended → f.shadowBearing = true → f.state ≠ .armed) : (s.setEntry i f).Unsettled := by
  have he := h.unsettled
  have hentry := entryAt_set_of_lt (h.index_lt hi) f
  refine ⟨he.table.set i hf, suspensionSound_of_entry fun hm j hb => ?_, ?_, he.access, he.idle, he.host⟩
  · rw [State.setEntry_entries, hentry] at hb ⊢
    split at hb
    · next hij => rw [if_pos hij]; exact ⟨hsuspended hm hb, hfs⟩
    · next hij => rw [if_neg hij]; exact he.suspension.entry hm j hb
  · refine he.fetch.congr (fs := s.entries.set i f) (fun j => ?_) fun j _ => ?_
    all_goals
      rw [hentry]
      split
    · next hij => subst hij; exact iff_of_false hs hfs
    · rfl
    · next hij => subst hij; exact hdesc.symm
    · rfl

/-- R12, R19: an entry sets out to fetch. -/
theorem State.Examined.beginFetch (h : s.Examined) (hi : i < entryCount) (hs : (s.entry i).state ≠ .fetching)
    (hb : (s.entry i).shadowBearing = true) (hm : s.mode = .monitoring) : (s.beginFetch i).Unsettled := by
  have he := h.unsettled
  have hc : CanFetch s.entries [i] := ⟨List.nodup_singleton i, by simpa, by simpa, by simpa⟩
  have hframe := s.beginFetch_frame i
  refine ⟨State.beginFetches_table (is := [i]) he.table hc, ?_, ?_, ?_, ?_, ?_⟩
  · rw [hframe, hm]
    exact suspensionSound_monitoring _
  · have hfetches : (s.beginFetch i).port.fetches = s.port.fetches := by rw [hframe]; rfl
    rw [hfetches]
    exact State.beginFetches_fetch (is := [i]) he.table he.fetch hc
  · have hhost : (s.beginFetch i).host = s.host := by rw [hframe]
    have hbus : (s.beginFetch i).port.bus = s.port.bus := by rw [hframe]
    rw [hhost, hbus]
    refine he.access.of_head fun a ha how => ?_
    obtain ⟨r, rest, hl, -⟩ := (h.fetch_on ha how).exists_issued
    rw [State.beginFetch_list (h.index_lt hi), hl]
    split <;> rfl
  · rw [hframe]
    exact he.idle
  · rw [hframe]
    exact he.host

theorem giveUp_head_addr {list : List FetchRequest} {es : List Entry} (h : FetchListSound list es true) (i : Nat) :
    (giveUp i list).head?.map FetchRequest.addr = list.head?.map FetchRequest.addr := by
  obtain ⟨r, rest, rfl, hr⟩ := h.exists_issued
  rw [giveUp_cons, if_neg (by simp [hr])]
  split <;> rfl

/-- R17, R18: an entry gives up its fetch and leaves the watch. -/
theorem State.Examined.withdraw (h : s.Examined) (hi : i < entryCount) (hf : f.sound = true) (hfs : f.state.watching = false) :
    ((s.giveUpFetch i).setEntry i f).Unsettled := by
  have he := h.unsettled
  have hentry := entryAt_set_of_lt (h.index_lt hi) f
  have his := EntryState.not_waiting_of_unwatched hfs
  refine ⟨he.table.set i hf, suspensionSound_of_entry fun hm j hb => ?_, ?_, he.access.of_head_addr fun a ha how => ?_,
    he.idle, he.host⟩
  · rw [State.setEntry_entries, State.giveUpFetch_entries, hentry] at hb ⊢
    split at hb
    · next hij =>
      rw [if_pos hij]
      refine ⟨?_, his.2⟩
      rintro ha
      rw [ha] at hfs
      cases hfs
    · next hij => rw [if_neg hij]; exact he.suspension.entry hm j hb
  · refine he.fetch.giveUp (fs := s.entries.set i f) (fun j => ?_) fun j hj => ?_
    all_goals rw [hentry]
    · split
      · next hij => subst hij; simpa using his.2
      · next hij => simp [Ne.symm hij]
    · rw [if_neg (Ne.symm hj)]
  · exact giveUp_head_addr (h.fetch_on ha how) i

end Entries

/-! ## SUSPEND and RESUME (R24, R26) -/

section Mode
variable {s : State}

/-- The state as SUSPEND leaves it, before a held beat is released. -/
def State.suspending (s : State) : State :=
  { s with
    mode := .suspended
    entries := mapFrom (fun _ e => e.suspended) 0 s.entries
    port := { s.port with list := suspendedList s.port.list } }

theorem Entry.suspended_state {e : Entry} (h : e.sound = true) :
    e.suspended.state ≠ .fetching ∧ (e.shadowBearing = true → e.suspended.state ≠ .armed) := by
  unfold Entry.suspended
  split
  · split <;> simp_all
  · next hb =>
    refine ⟨fun hs => hb (Entry.sound.bearing_of_waiting h (by rw [hs]; rfl)), fun hb' => absurd hb' hb⟩

theorem Entry.suspended_desc (e : Entry) : e.suspended.desc = e.desc := by
  unfold Entry.suspended
  split
  · split <;> rfl
  · rfl

theorem State.suspending_entry (s : State) (i : Nat) : s.suspending.entry i = (s.entry i).suspended :=
  entryAt_mapFrom_of_empty _ _ _ rfl

theorem State.Examined.suspending (h : s.Examined) : s.suspending.Unsettled := by
  have he := h.unsettled
  have hstate : ∀ i, (entryAt s.suspending.entries i).state ≠ .fetching := fun i => by
    have hi := s.suspending_entry i
    rw [State.entry] at hi
    rw [hi]
    exact (Entry.suspended_state (h.table.entry i)).1
  refine ⟨he.table.mapFrom (f := Entry.suspended) fun e => Entry.suspended_sound, suspensionSound_of_entry fun _ i hb => ?_,
    h.fetch.suspendedList hstate, he.access.of_head_addr fun a ha how => ?_, he.idle, he.host⟩
  · refine ⟨?_, hstate i⟩
    have hi := s.suspending_entry i
    rw [State.entry] at hi
    rw [hi] at hb ⊢
    rw [Entry.shadowBearing_congr (Entry.suspended_desc _)] at hb
    exact (Entry.suspended_state (h.table.entry i)).2 hb
  · obtain ⟨r, rest, hl, hr⟩ := (h.fetch_on ha how).exists_issued
    simp [State.suspending, suspendedList, hl, hr]

theorem State.Examined.resuming (h : s.Examined) : State.Unsettled { s with mode := .monitoring } :=
  { h.unsettled with suspension := suspensionSound_monitoring _ }

end Mode

/-! ## The step -/

theorem Performed.trafficSound {s u : State} {c : Instr} {r : Reply} (h : s.trafficSound) (hu : Performed s c u r) :
    u.trafficSound := by
  have he := h.examined
  cases hu
  case report => exact h
  case loaded i d hi hstate hd _ =>
    refine h.setUnwatched hi (by rcases hstate with hs | hs <;> rw [hs] <;> rfl) ?_ rfl
    simpa [Entry.sound] using (readFrom_of_ok hd).2.valid
  case armed i hi hstate hs _ =>
    have hf := Entry.restarted_armed_sound (he.table.entry i) (by rw [← State.entry, hstate]; exact nofun)
    refine (he.setIdle hi (by simp [hstate]) hf nofun rfl fun _ hb => ?_).settle
    rw [Entry.shadowBearing_congr (Entry.restarted_desc _ _)] at hb
    cases hs.symm.trans hb
  case armedPending i hi hstate hs hm _ =>
    have hf := Entry.restarted_waiting_sound (he.table.entry i) hs (st := .pending) rfl
    exact (he.setIdle hi (by simp [hstate]) hf nofun rfl fun _ _ => nofun).settle
  case armedFetching i hi hstate hs hm _ => exact (he.beginFetch hi (by simp [hstate]) hs hm).settle
  case disarmed i hi hw _ =>
    have hne : (s.entry i).state ≠ .empty := by
      intro hs
      simp [hs, EntryState.watching] at hw
    exact (he.withdraw hi (Entry.restarted_loaded_sound (he.table.entry i) hne) rfl).settle
  case clearedWatching i hi hw _ => exact (he.withdraw hi Entry.empty_sound rfl).settle
  case cleared i hi hw _ => exact h.setUnwatched hi hw Entry.empty_sound rfl
  case resynced i hi hv _ =>
    obtain ⟨hb, hs⟩ := (Entry.shadowValid_iff _).mp hv
    have hm : s.mode = .monitoring := by
      cases hm : s.mode with
      | monitoring => rfl
      | suspended => exact absurd hs (he.suspension.entry hm i hb).1
    exact (he.beginFetch hi (by simp [hs]) hb hm).settle
  case suspended => exact he.suspending.settle
  case resumed => exact he.resuming.settle
  all_goals exact h.congr rfl rfl rfl rfl rfl fun _ _ => id

theorem State.trafficSound.endAccess {s : State} (h : s.trafficSound) (r : AccessEnd) : (s.endAccess r).trafficSound := by
  cases hbus : s.port.bus with
  | none => rwa [State.endAccess_of_free hbus]
  | some a =>
    rw [State.endAccess_eq hbus]
    exact (h.examined.afterAccess_unsettled hbus r).settle

theorem Effect.trafficSound {s t : State} {c : Instr} (h : s.trafficSound) (ht : Effect s c t) : t.trafficSound := by
  cases ht
  case answered => exact h.answered
  case powerUp => exact State.trafficSound_reset.congr rfl rfl rfl rfl rfl fun x hx => nomatch hx
  case powerUpResetEnd hp =>
    refine h.congr rfl rfl rfl rfl rfl fun _ _ hopen => ?_
    cases hp.symm.trans (s.hostPortOpen_iff.mp hopen).1
  case initialisationEnd n hp =>
    refine h.congr rfl rfl rfl rfl rfl fun _ _ hopen => ?_
    cases hp.symm.trans (s.hostPortOpen_iff.mp hopen).1
  case srstnFall => exact h.answered.takeSrstnFall
  case srstnRise => exact h.answered.congr rfl rfl rfl rfl rfl fun _ _ => id
  case hostReset => exact h.quiet.takeHrstnFall
  case hrstnRise hlow =>
    refine h.congr rfl rfl rfl rfl rfl fun _ _ hopen => ?_
    cases hlow.symm.trans (s.hostPortOpen_iff.mp hopen).2
  case beatTaken x data strobes ho hb =>
    refine h.answered.takeBeat ?_ (awaits_of_beatOffered h hb ho) data strobes
    rw [State.answered_frame]
    exact ho
  case accessEnded => exact h.answered.endAccess _
  case ticked order _ _ => exact h.quiet.tickOnce order
  case gapExpired => exact h.quiet.gapExpires
  case refclkEdge order _ => exact h.quiet.refclkEdge order
  case csnRiseReset =>
    have hdeselected : s.deselected.trafficSound := h.congr rfl rfl rfl rfl rfl fun _ _ => id
    exact hdeselected.supervisorReset
  case performed hu => exact (hu.trafficSound h.quiet).congr rfl rfl rfl rfl rfl fun _ _ => id
  all_goals exact h.congr rfl rfl rfl rfl rfl fun _ _ => id

theorem AccessSound.nextPeriod {host : Option Transaction} {head : Option FetchRequest} {a : Access}
    (h : AccessSound host head (some a)) (hlt : a.period < 1024) : AccessSound host head (some { a with period := a.period + 1 }) := by
  refine ⟨fun c hc how => ?_, h.atMemory, fun c hc how => ?_, fun c hc how => ?_, fun c hc => ?_⟩ <;> cases hc
  · exact h.wanted a rfl how
  · exact h.fetch a rfl how
  · exact h.reads a rfl how
  · exact ⟨Nat.le_add_left 1 _, hlt⟩

/-- One more period of the access on the bus (R56). -/
theorem State.trafficSound.nextPeriod {s : State} (h : s.trafficSound) {a : Access} (hbus : s.port.bus = some a)
    (hlt : a.period < 1024) :
    State.trafficSound { s with port := { s.port with bus := some { a with period := a.period + 1 } } } := by
  have he := h.examined
  refine (State.trafficSound_iff _).mpr ⟨⟨he.table, he.suspension, ?_, (hbus ▸ he.access).nextPeriod hlt, he.hold, he.host⟩,
    nofun, h.room⟩
  have hfetch := he.fetch
  rwa [MemoryPort.fetches, hbus] at hfetch

theorem State.trafficSound.bclkPeriod {s : State} (h : s.trafficSound) : s.bclkPeriod.trafficSound := by
  cases hp : s.power with
  | powerUpReset => simpa [State.bclkPeriod, hp] using h
  | initialising n =>
    simp only [State.bclkPeriod, hp]
    split
    all_goals
      refine h.congr rfl rfl rfl rfl rfl fun _ _ hopen => ?_
      cases hp.symm.trans (s.hostPortOpen_iff.mp hopen).1
  | running =>
    rcases State.bclkPeriod_cases hp with ⟨-, hs⟩ | ⟨a, hbus, ⟨hlt, hs⟩ | ⟨-, hs⟩⟩ <;> rw [hs]
    · exact h
    · exact h.nextPeriod hbus hlt
    · exact h.endAccess _

theorem State.trafficSound.sampleSrstn {s : State} (h : s.trafficSound) (low : Bool) : (s.sampleSrstn low).trafficSound := by
  rcases s.sampleSrstn_cases low with hs | ⟨-, -, hs⟩ | ⟨-, -, hs⟩ <;> rw [hs]
  · exact h.congr rfl rfl rfl rfl rfl fun _ _ => id
  · exact h.takeSrstnFall
  · exact h.congr rfl rfl rfl rfl rfl fun _ _ => id

theorem State.trafficSound.sampleHrstn {s : State} (h : s.trafficSound) (low : Bool) : (s.sampleHrstn low).trafficSound := by
  rcases s.sampleHrstn_cases low with hs | ⟨-, -, hs⟩ | ⟨-, -, hs⟩ <;> rw [hs]
  · exact h.congr rfl rfl rfl rfl rfl fun _ _ => id
  · exact h.takeHrstnFall
  · refine h.congr rfl rfl rfl rfl rfl fun _ _ hopen => ?_
    exact (State.hostPortOpen_iff _).mpr ⟨(s.hostPortOpen_iff.mp hopen).1, rfl⟩

theorem State.trafficSound.sckFalls {s : State} (h : s.trafficSound) : s.sckFalls.trafficSound := by
  by_cases hp : s.link.phase = .idle
  · rw [State.sckFalls_of_idle hp]
    exact h.congr rfl rfl rfl rfl rfl fun _ _ => id
  · rw [State.sckFalls_of_selected hp]
    exact h.congr rfl rfl rfl rfl rfl fun _ _ => id

theorem trafficSound_invariant : StepInvariant State.trafficSound where
  dequeue _ _ h := h.congr rfl rfl rfl rfl rfl fun _ _ => id
  count _ _ h := h.congr rfl rfl rfl rfl rfl fun _ _ => id
  effect _ _ _ h ht := ht.trafficSound h
  srstn _ low h := h.sampleSrstn low
  hrstn _ low h := h.sampleHrstn low
  period _ h := h.bclkPeriod
  give _ h := h.giveAnswer
  irc _ order h := h.ircPeriod order
  sckFalls _ h := h.sckFalls
  sckIgnored _ h := h.congr rfl rfl rfl rfl rfl fun _ _ => id
  sckSamples _ _ _ _ h := h.congr rfl rfl rfl rfl rfl fun _ _ => id

/-- Settles O5: every effect of a command and every edge keeps traffic sound, what follows a change of table, list or beats
through the three stages of settling. -/
theorem stepKeepsTrafficSound : Obligations.StepKeepsTrafficSound := fun _ _ => trafficSound_invariant.step

end Sys2Proof.Machine
end

section
/-! A beat taken (R78, R79, R84, R85): refused, held, passed unchecked, or decided at once. -/

namespace Sys2Proof.Machine

/-! ## A beat offered -/

section Offered
variable {s : State} {c : Instr} {x : Transaction} {data : Word} {strobes : Lanes}

theorem State.answered_of_open (h : s.hostPortOpen = true) :
    s.answered = { s with host := s.hostAnswered, out := ⟨s.heldAnswer, none⟩ } := if_pos h

@[simp] theorem State.answered_mode (s : State) : s.answered.mode = s.mode := by rw [State.answered_frame]
@[simp] theorem State.answered_entries (s : State) : s.answered.entries = s.entries := by rw [State.answered_frame]
@[simp] theorem State.answered_checker (s : State) : s.answered.checker = s.checker := by rw [State.answered_frame]
@[simp] theorem State.answered_time (s : State) : s.answered.time = s.time := by rw [State.answered_frame]
@[simp] theorem State.answered_queue (s : State) : s.answered.queue = s.queue := by rw [State.answered_frame]
@[simp] theorem State.answered_alerts (s : State) : s.answered.alerts = s.alerts := by rw [State.answered_frame]

/-- A command that offers a beat to an open host port has it taken. -/
theorem exec_of_beatOffered (hb : beatOffered c s = some (x, data, strobes)) (ho : s.hostPortOpen = true) :
    exec c s = .next (s.answered.takeBeat x data strobes) := by
  have hhost := State.answered_host_of_open ho
  unfold beatOffered at hb
  split at hb
  · split at hb
    · next hnone =>
      cases hb
      simp [exec, execTransactionRequestTaken, State.atBclk_eq, ho, hhost, hnone]
    · cases hb
  · split at hb
    · cases hb
    · next y hy =>
      split at hb
      · next hcurrent =>
        cases hb
        simp [exec, execBeatTaken, State.atBclk_eq, ho, hhost, hy, hcurrent]
      · cases hb
  · cases hb

theorem exec_transactionRequestTaken_refused {start : Addr} {hdir : Bool} {hlen : BitVec 2}
    (h : s.hostPortOpen = false ∨ s.hostAnswered ≠ none) :
    exec (.transactionRequestTaken start hdir hlen data strobes) s = .next s.answered := by
  cases ho : s.hostPortOpen with
  | false => simp [exec, execTransactionRequestTaken, State.atBclk_eq, ho]
  | true =>
    have hsome : s.hostAnswered.isNone = false := by
      rw [Option.isNone_eq_false_iff, Option.isSome_iff_ne_none]
      exact h.resolve_left (by simp [ho])
    simp [exec, execTransactionRequestTaken, State.atBclk_eq, ho, State.answered_host_of_open ho, hsome]

theorem exec_beatTaken_refused (h : s.hostPortOpen = false ∨ ∀ x, s.hostAnswered = some x → x.current ≠ none) :
    exec (.beatTaken data strobes) s = .next s.answered := by
  cases ho : s.hostPortOpen with
  | false =>
    simp only [exec, execBeatTaken, State.atBclk_eq, ho, Bool.false_and]
    split <;> rfl
  | true =>
    simp only [exec, execBeatTaken, State.atBclk_eq, ho, Bool.true_and, State.answered_host_of_open ho]
    split
    · rfl
    · next x hx =>
      have hsome := h.resolve_left (by simp [ho]) x hx
      simp [hsome]

end Offered

/-! ## The course of a transaction -/

section Course
variable {s : State}

/-- The course of the transaction in progress. -/
def State.course (s : State) : Option Course := s.host.map Transaction.course

theorem State.setBeatState_course (s : State) (st : BeatState) : (s.setBeatState st).course = s.course := by
  simp only [State.course, State.setBeatState, Option.map_map]
  rfl

theorem State.hold_course (s : State) (a : HostAnswer) : (s.hold a).course = s.course := by
  simp only [State.course, State.hold, Option.map_map]
  rfl

theorem State.dispose_course (s : State) (d : Disposition) : (s.dispose d).course = s.course := by
  unfold State.dispose
  split
  · exact s.setBeatState_course _
  · rw [State.hold_course, State.setBeatState_course]

theorem State.examine_course (s : State) : s.examine.course = s.course := by
  unfold State.examine State.examineBeat
  split
  · rfl
  · split
    · exact State.dispose_course _ _
    · dsimp only
      split
      · rw [State.decideBeat, State.dispose_course, State.raise_frame]
        rfl
      · rw [State.promote_frame]
        exact s.setBeatState_course _

theorem State.grant_course (s : State) : s.grant.course = s.course := by
  rcases s.grant_host with h | h
  · rw [State.course, h, State.course]
  · rw [h, State.issueBeat]
    split
    · rfl
    · exact s.setBeatState_course _

/-- Settling leaves the course of the transaction. -/
theorem State.settle_course (s : State) : s.settle.course = s.course := by
  rw [State.settle, State.grant_course, State.course, State.fill_host]
  exact s.examine_course

end Course

/-- Settles O13: the beat of a refused or cut course by `takeBeat`, the others by what the commands ask for. -/
theorem refusedBurstIsAnsweredErrorAlone : Obligations.RefusedBurstIsAnsweredErrorAlone := by
  intro s start hdir hlen data strobes dir len op
  have hoffered : s.hostAnswered = none → beatOffered (.transactionRequestTaken start hdir hlen data strobes) s =
      some (⟨start, dir, len, 0, courseOf start len, none, none⟩, data, strobes) := fun h => by
    simp only [beatOffered, h]
    rfl
  have hop : ∀ d, beatOp d data strobes = op d := fun d => by cases d <;> rfl
  simp only [State.takesBeats_iff, Bool.not_eq_true]
  refine ⟨fun ho hnone hlong => ?_, fun x ho hx hcourse hcurrent => ?_, fun ho hnone hshort => ?_,
    exec_transactionRequestTaken_refused, exec_beatTaken_refused⟩
  · have hrefused : courseOf start len = .refused := if_pos hlong
    rw [exec_of_beatOffered (hoffered hnone) ho, hrefused, State.takeBeat_other, State.answered_of_open ho]
    · simp only [Transaction.taking, Transaction.nextBeat, hop, BitVec.add_zero, Nat.zero_add]
    · exact nofun
  · have hoffer : beatOffered (.beatTaken data strobes) s = some (x, data, strobes) := by simp [beatOffered, hx, hcurrent]
    rw [exec_of_beatOffered hoffer ho, State.takeBeat_other hcourse, State.answered_of_open ho]
    simp only [Transaction.taking, Transaction.nextBeat, hop]
  · have hnormal : courseOf start len = .normal := if_neg (by omega)
    refine ⟨_, exec_of_beatOffered (hoffered hnone) ho, fun y hy hrefused => ?_⟩
    rw [hnormal, State.takeBeat_normal rfl] at hy
    have hcourse := State.settle_course { s.answered with
      host := some ((⟨start, dir, len, 0, .normal, none, none⟩ : Transaction).taking data strobes) }
    rw [State.course, hy, Option.map_some, hrefused] at hcourse
    cases hcourse

/-! ## A beat before the checker -/

/-- Room is that of the mode, the length of the list and the roles of the entries. -/
theorem State.roomSound.congr {s t : State} (h : s.roomSound) (hm : t.mode = s.mode)
    (hl : t.port.list.length = s.port.list.length) (hr : SameRoles s.entries t.entries) : t.roomSound := by
  intro hmode hfree
  rw [State.hasRoom, hl] at hfree
  refine (forall_mem_iff_entryAt (p := fun e => e.state ≠ .pending) nofun).mpr fun i hi => ?_
  exact (forall_mem_iff_entryAt (p := fun e => e.state ≠ .pending) nofun).mp (h (hm ▸ hmode) hfree) i
    ((EntryState.pending_of_role (hr.role i)).mpr hi)

section Take
variable {s : State} {x : Transaction} {data : Word} {strobes : Lanes}

/-- What the next beat of the transaction does. -/
abbrev Transaction.nextOp (x : Transaction) (data : Word) (strobes : Lanes) : BeatOp := beatOp x.dir data strobes

/-- Its address. -/
abbrev Transaction.nextAddr (x : Transaction) : Addr := x.start + BitVec.ofNat 24 x.answered

theorem Transaction.taking_decidedAs (x : Transaction) (data : Word) (strobes : Lanes) (d : Disposition) :
    (x.taking data strobes).decidedAs (x.nextBeat data strobes) d =
      { x with current := some ⟨x.answered + 1, x.nextAddr, x.nextOp data strobes, .decided d⟩, held := d.ownAnswer } := by
  rw [Transaction.decidedAs_eq]
  rfl

theorem taking_presents (hc : x.course = .normal) :
    State.Presents { s with host := some (x.taking data strobes) } (x.taking data strobes) (x.nextBeat data strobes) :=
  ⟨rfl, rfl, hc, .inl rfl⟩

/-- While the bus is free the list is empty, so that the list has room and no entry waits. -/
theorem State.trafficSound.not_waiting_of_free (h : s.trafficSound) (hm : s.mode = .monitoring) (hbus : s.port.bus = none) :
    ∀ e ∈ s.entries, e.state.waiting = false := by
  have hl := (h.arbiter hbus).1
  refine (forall_mem_iff_entryAt (p := fun e => e.state.waiting = false) rfl).mpr fun i => ?_
  rw [← Bool.not_eq_true, EntryState.waiting_iff]
  rintro (hs | hs)
  · refine (forall_mem_iff_entryAt (p := fun e => e.state ≠ .pending) nofun).mp (h.room hm ?_) i hs
    rw [State.hasRoom, hl]
    rfl
  · have hfetch := h.examined.fetch
    rw [hl] at hfetch
    exact hfetch.not_fetching_of_nil h.examined.table.1 i hs

/-- No beat is blocked while the bus is free. -/
theorem State.trafficSound.bus_of_blocking (h : s.trafficSound) (hm : s.mode = .monitoring) {addr : Addr} {dir : Direction}
    (hb : blockingOf s.entries addr dir ≠ []) : ∃ a, s.port.bus = some a := by
  refine Option.ne_none_iff_exists'.mp fun hbus => hb ?_
  exact blockingOf_eq_nil (h.not_waiting_of_free hm hbus) addr dir

/-- A grant with an empty list: the PASSED beat's alone. -/
theorem State.grant_of_nil (hbus : s.port.bus = none) (hl : s.port.list = []) :
    (s.waitingBeat = none → s.grant = s) ∧
      ∀ y b, s.host = some y → y.current = some b → b.state = .decided .passed →
        s.grant = { s with host := some { y with current := some { b with state := .atMemory } }
                           port := ⟨[], some ⟨.host true, b.addr, b.op, 1⟩, some .kind2⟩ } := by
  have hchoice := State.choice_of_queued (s := s) (by rw [hl]; exact nofun)
  rw [hl] at hchoice
  refine ⟨fun hw => State.grant_of_none ?_, fun y b hy hb hs => ?_⟩
  · rw [hchoice, hw]
    rfl
  · have hw : s.waitingBeat = some b := State.waitingBeat_iff.mpr ⟨y, hy, hb, hs⟩
    rw [hw] at hchoice
    rw [State.grant_beat hbus hchoice hy hb, hl]

variable (h : s.trafficSound) (ho : s.hostPortOpen = true) (ha : s.Awaits x) (hc : x.course = .normal)
include h ho ha hc

/-- Settles a beat taken once its examination is known. -/
theorem State.trafficSound.takeBeat_eq {e : State} (he : State.examine { s with host := some (x.taking data strobes) } = e)
    (hm : e.mode = s.mode) (hl : e.port.list.length = s.port.list.length) (hr : SameRoles s.entries e.entries) :
    s.takeBeat x data strobes = e.grant := by
  have hexamined := (h.taken_unsettled ho ha hc data strobes).examine
  rw [he] at hexamined
  rw [State.takeBeat_normal hc, State.settle, he, hexamined.fill_eq (h.room.congr hm hl hr)]

/-- R32: the beat is held. -/
theorem State.trafficSound.takeBeat_held (hm : s.mode = .monitoring) (hb : blockingOf s.entries x.nextAddr x.dir ≠ []) :
    s.takeBeat x data strobes = { s with
      host := some { x with current := some ⟨x.answered + 1, x.nextAddr, x.nextOp data strobes, .held⟩ }
      checker := some ⟨coveringOf s.entries x.nextAddr x.dir, blockingOf s.entries x.nextAddr x.dir⟩
      port := { s.port with list := promoted (blockingOf s.entries x.nextAddr x.dir) s.port.list } } := by
  have hdir : (x.nextBeat data strobes).op.dir = x.dir := beatOp_dir _ _ _
  have hexamine := State.examine_held (taking_presents (s := s) (data := data) (strobes := strobes) hc) hm
    (by rw [hdir]; exact hb)
  rw [h.takeBeat_eq ho ha hc hexamine rfl (promoted_perm _ (blockingOf_nodup _ _ _) _).length_eq (.refl _)]
  obtain ⟨a, hbus⟩ := h.bus_of_blocking hm hb
  rw [State.grant_of_busy (a := a)]
  · simp only [decisionOn, hdir, Transaction.taking, ha.held]
    rfl
  · exact hbus

/-- R35, R53: the beat passes unchecked. -/
theorem State.trafficSound.takeBeat_suspended (hm : s.mode = .suspended) :
    s.takeBeat x data strobes = State.grant { s with
      host := some { x with current := some ⟨x.answered + 1, x.nextAddr, x.nextOp data strobes, .decided .passed⟩ } } := by
  have hexamine := State.examine_suspended (taking_presents (s := s) (data := data) (strobes := strobes) hc) rfl hm
  rw [h.takeBeat_eq ho ha hc hexamine rfl rfl (.refl _), Transaction.taking_decidedAs]
  have hchecker := h.examined.hold.1 ha.beatAtChecker
  simp only [Disposition.ownAnswer, ← ha.held, ← hchecker]

/-- R31, R34: the beat is decided. -/
theorem State.trafficSound.takeBeat_decided (hm : s.mode = .monitoring) (hb : blockingOf s.entries x.nextAddr x.dir = []) :
    s.takeBeat x data strobes = State.grant { s with
      entries := judged s.entries x.nextAddr (x.nextOp data strobes)
      queue := (s.raisedOn (x.nextBeat data strobes)).queue, alerts := (s.raisedOn (x.nextBeat data strobes)).alerts
      host := some { x with
        current := some ⟨x.answered + 1, x.nextAddr, x.nextOp data strobes,
          .decided (dispositionOn s.entries (x.nextBeat data strobes))⟩
        held := (dispositionOn s.entries (x.nextBeat data strobes)).ownAnswer } } := by
  have hdir : (x.nextBeat data strobes).op.dir = x.dir := beatOp_dir _ _ _
  have hexamine := State.examine_decided (taking_presents (s := s) (data := data) (strobes := strobes) hc) rfl hm
    (by rw [hdir]; exact hb)
  rw [h.takeBeat_eq ho ha hc hexamine rfl rfl (judged_sameRoles _ _ _), Transaction.taking_decidedAs]
  have hchecker := h.examined.hold.1 ha.beatAtChecker
  have hqueue := State.raise_queue_congr (s := { s with host := some (x.taking data strobes) }) (t := s) rfl
  have halerts := State.raise_alerts_congr (s := { s with host := some (x.taking data strobes) }) (t := s) rfl rfl
  simp only [State.raisedOn, hqueue, halerts, ← hchecker]
  rfl

end Take

end Sys2Proof.Machine
end

section
/-! A beat taken (continued): the events of a decision (R45), and the three outcomes of an examination. -/

namespace Sys2Proof.Machine

/-! ## The events of a decision (R45) -/

/-- Events that name the entry that each comes from stand in ascending index. -/
theorem collectFrom_ascending {f : Nat → Entry → Option Event} (hf : ∀ k e ev, f k e = some ev → ev.entry = some k) (i : Nat)
    (es : List Entry) :
    (collectFrom (fun k e => (f k e).toList) i es).Pairwise (fun a b => a.entry.getD 0 < b.entry.getD 0) ∧
      ∀ ev ∈ collectFrom (fun k e => (f k e).toList) i es, i ≤ ev.entry.getD 0 := by
  induction es generalizing i with
  | nil => exact ⟨.nil, fun ev hmem => absurd hmem List.not_mem_nil⟩
  | cons e es ih =>
    obtain ⟨hpairwise, hle⟩ := ih (i + 1)
    rw [collectFrom]
    cases hev : f i e with
    | none =>
      rw [Option.toList_none, List.nil_append]
      exact ⟨hpairwise, fun ev hmem => Nat.le_of_succ_le (hle ev hmem)⟩
    | some ev =>
      have hentry : ev.entry.getD 0 = i := by rw [hf i e ev hev, Option.getD_some]
      rw [Option.toList_some, List.singleton_append]
      refine ⟨List.pairwise_cons.mpr ⟨fun b hb => ?_, hpairwise⟩, fun b hb => ?_⟩
      · rw [hentry]
        exact hle b hb
      · rcases List.mem_cons.mp hb with rfl | hb
        · exact hentry.ge
        · exact Nat.le_of_succ_le (hle b hb)

theorem tripEvent_entry (kind : EventKind) (i : Nat) (e : Entry) (addr : Addr) (op : BeatOp) (now : TickCount) (d : Disposition) :
    (tripEvent kind i e addr op now d).entry = some i := by
  unfold tripEvent
  split <;> rfl

theorem decisionEvents_ascending (es : List Entry) (addr : Addr) (op : BeatOp) (now : TickCount) (d : Disposition) :
    (decisionEvents es addr op now d).Pairwise fun a b => a.entry.getD 0 < b.entry.getD 0 := by
  refine (collectFrom_ascending (f := fun i e => (e.judge addr op).trip.map fun k => tripEvent k i e addr op now d)
    (fun i e ev h => ?_) 0 es).1
  obtain ⟨k, -, rfl⟩ := Option.map_eq_some_iff.mp h
  exact tripEvent_entry ..

theorem mem_decisionEvents {es : List Entry} {addr : Addr} {op : BeatOp} {now : TickCount} {d : Disposition} {ev : Event} :
    ev ∈ decisionEvents es addr op now d ↔
      ∃ i k, i < es.length ∧ ((entryAt es i).judge addr op).trip = some k ∧ ev = tripEvent k i (entryAt es i) addr op now d := by
  simp only [decisionEvents, mem_collectFrom, Option.mem_toList, Option.map_eq_some_iff, Nat.zero_add]
  constructor
  · rintro ⟨i, hi, k, hk, rfl⟩
    exact ⟨i, k, hi, by rwa [entryAt_eq_getElem hi], by rw [entryAt_eq_getElem hi]⟩
  · rintro ⟨i, k, hi, hk, rfl⟩
    rw [entryAt_eq_getElem hi] at hk ⊢
    exact ⟨i, hi, k, hk, rfl⟩

/-- The kinds of trip: CONDITION_BROKEN of a write, or a count's. -/
theorem Entry.judge_trip {e : Entry} {addr : Addr} {op : BeatOp} {k : EventKind} (h : (e.judge addr op).trip = some k) :
    k = .conditionBroken ∧ (∃ data strobes, op = .write data strobes) ∨ k = .countExhausted ∨ k = .rateExceeded := by
  rcases e.judge_cases addr op with hj | ⟨d, -, -, hj | ⟨-, ⟨-, hj⟩ | ⟨-, hj⟩⟩⟩ <;> rw [hj] at h
  · cases h
  · rcases judgeCondition_cases d e op with hc | ⟨hop, hc⟩ <;> rw [hc] at h <;> cases h
    exact .inl ⟨rfl, hop⟩
  · unfold judgeTotal at h
    split at h <;> cases h
    exact .inr (.inl rfl)
  · unfold judgeRate at h
    split_ifs at h <;> cases h
    exact .inr (.inr rfl)

/-- The event of a count's trip (R45). -/
theorem tripEvent_of_count {k : EventKind} (h : k ≠ .conditionBroken) (i : Nat) (e : Entry) (addr : Addr) (op : BeatOp)
    (now : TickCount) (d : Disposition) :
    tripEvent k i e addr op now d =
      ⟨k, e.cls, now, some i, some addr, op.lanes, none, none, some d, some op.detail⟩ := by
  unfold tripEvent
  split
  · exact absurd rfl h
  · rfl

/-- The event of a trip, field by field (R45). -/
theorem tripEvent_iff {e : Entry} {addr : Addr} {op : BeatOp} {k : EventKind} (h : (e.judge addr op).trip = some k) (i : Nat)
    (now : TickCount) (d : Disposition) (ev : Event) :
    ev = tripEvent k i e addr op now d ↔
      k = .conditionBroken ∧ (∃ data strobes, op = .write data strobes ∧
          ev = ⟨.conditionBroken, e.cls, now, some i, some addr, some strobes, some e.rt.shadow,
            some (merged e.rt.shadow data strobes), some d, none⟩) ∨
        (k = .countExhausted ∨ k = .rateExceeded) ∧
          ev = ⟨k, e.cls, now, some i, some addr, op.lanes, none, none, some d, some op.detail⟩ := by
  rcases Entry.judge_trip h with ⟨rfl, data, strobes, rfl⟩ | hk
  · constructor
    · rintro rfl
      exact .inl ⟨rfl, data, strobes, rfl, rfl⟩
    · rintro (⟨-, data', strobes', hop, rfl⟩ | ⟨hk | hk, -⟩)
      · cases hop
        rfl
      · cases hk
      · cases hk
  · have hne : k ≠ .conditionBroken := by rcases hk with rfl | rfl <;> exact nofun
    rw [tripEvent_of_count hne]
    exact ⟨fun hev => .inr ⟨hk, hev⟩, fun hev => (hev.resolve_left fun hc => hne hc.1).2⟩

/-! ## The three outcomes (R31 to R35, R46, R53) -/

section Outcomes
variable {s : State} {x : Transaction} {c : Instr} {data : Word} {strobes : Lanes}

theorem State.answered_open_of_open (ho : s.hostPortOpen = true) : s.answered.hostPortOpen = true := by
  rw [State.answered_of_open ho]
  exact ho

/-- Settles O16: the beat is DECIDED unchecked, and the grant by whether the bus is free. -/
theorem suspendedBeatPassesUnchecked : Obligations.SuspendedBeatPassesUnchecked := by
  intro c s x data strobes hb htakes h hc hm addr op
  have ho := s.takesBeats_iff.mp htakes
  have hopen := State.answered_open_of_open ho
  rw [exec_of_beatOffered hb ho, h.answered.takeBeat_suspended hopen (awaits_of_beatOffered h hb ho) hc
    (by rw [State.answered_of_open ho]; exact hm), State.answered_of_open ho]
  refine ⟨fun a hbus => ?_, fun hbus => ?_⟩
  · rw [State.grant_of_busy (a := a)]
    exact hbus
  · rw [(State.grant_of_nil (by exact hbus) (by exact (h.arbiter hbus).1)).2 _ _ rfl rfl rfl]

/-- Coverage in the words of the claim (R5, R30). -/
theorem Entry.covers_iff (e : Entry) (addr : Addr) (dir : Direction) :
    e.covers addr dir = true ↔
      ∃ d, e.desc = some d ∧ d.base.toNat ≤ addr.toNat ∧ addr.toNat ≤ d.limit.toNat ∧
        (d.sense = .both ∨ d.sense = .writes ∧ dir = .write ∨ d.sense = .reads ∧ dir = .read) ∧
        (e.state = .armed ∨ e.state = .lapsed ∨ e.state = .pending ∨ e.state = .fetching) := by
  have hsense : ∀ sense : Sense, sense.selects dir = true ↔
      sense = .both ∨ sense = .writes ∧ dir = .write ∨ sense = .reads ∧ dir = .read := by
    intro sense
    cases sense <;> cases dir <;> simp [Sense.selects]
  have hwatching : e.state.watching = true ↔ e.state = .armed ∨ e.state = .lapsed ∨ e.state = .pending ∨ e.state = .fetching := by
    cases e.state <;> simp [EntryState.watching]
  simp only [Entry.covers, Bool.and_eq_true, Option.any_eq_true, Descriptor.watches, decide_eq_true_eq, hsense, hwatching,
    BitVec.le_def]
  constructor
  · rintro ⟨hs, d, hd, ⟨hbase, hlimit⟩, hdir⟩
    exact ⟨d, hd, hbase, hlimit, hdir, hs⟩
  · rintro ⟨d, hd, hbase, hlimit, hdir, hs⟩
    exact ⟨hs, d, hd, ⟨hbase, hlimit⟩, hdir⟩

/-- Settles O15: coverage by its definition, the sets as ascending indexes, the hold by `takeBeat_held`. -/
theorem blockedBeatIsHeld : Obligations.BlockedBeatIsHeld := by
  refine ⟨Entry.covers_iff, fun es addr dir => ⟨fun i => mem_coveringOf, fun i => mem_blockingOf, indexesOf_sorted _ _,
    indexesOf_sorted _ _⟩, ?_⟩
  intro c s x data strobes hb htakes h hc hm addr blocking hblocking
  have ho := s.takesBeats_iff.mp htakes
  have hopen := State.answered_open_of_open ho
  rw [exec_of_beatOffered hb ho, h.answered.takeBeat_held hopen (awaits_of_beatOffered h hb ho) hc
    (by rw [State.answered_of_open ho]; exact hm) (by rw [State.answered_of_open ho]; exact hblocking), State.answered_of_open ho]

/-- The transaction once the answer of its beat is given (R81, R85). -/
theorem State.hostAnswered_of_held {t : State} {a : HostAnswer} {b : Beat} {course : Course} (hx : x.current = none)
    (hh : x.held = none) (hcourse : (if b.state = .decided .rejected then Course.cut else x.course) = course)
    (ht : t.host = some { x with current := some b, held := some a }) :
    t.hostAnswered = if x.answered + 1 = x.len.beats then none else some { x with answered := x.answered + 1, course := course } := by
  simp only [State.hostAnswered, ht, Option.any_some, decide_eq_true_eq, hcourse, hx, hh]
  rfl

/-- The events of a decision are raised on the answered state as on the state itself. -/
theorem State.raisedOn_answered (s : State) (b : Beat) :
    (s.answered.raisedOn b).queue = (s.raisedOn b).queue ∧ (s.answered.raisedOn b).alerts = (s.raisedOn b).alerts := by
  rw [State.raisedOn, State.raisedOn, State.answered_entries, State.answered_time]
  exact ⟨State.raise_queue_congr s.answered_queue _, State.raise_alerts_congr s.answered_queue s.answered_alerts _⟩

/-- The state with the next beat of the transaction decided, before a grant. -/
def State.beatDecided (s : State) (x : Transaction) (data : Word) (strobes : Lanes) : State :=
  { s with
    entries := judged s.entries x.nextAddr (x.nextOp data strobes)
    queue := (s.raisedOn (x.nextBeat data strobes)).queue, alerts := (s.raisedOn (x.nextBeat data strobes)).alerts
    host := some { x with
      current := some ⟨x.answered + 1, x.nextAddr, x.nextOp data strobes, .decided (dispositionOn s.entries (x.nextBeat data strobes))⟩
      held := (dispositionOn s.entries (x.nextBeat data strobes)).ownAnswer }
    out := ⟨s.heldAnswer, none⟩ }

theorem exec_of_unblocked (hb : beatOffered c s = some (x, data, strobes)) (ho : s.hostPortOpen = true) (h : s.trafficSound)
    (hc : x.course = .normal) (hm : s.mode = .monitoring) (hblocking : blockingOf s.entries x.nextAddr x.dir = []) :
    exec c s = .next (s.beatDecided x data strobes).grant := by
  obtain ⟨hqueue, halerts⟩ := s.raisedOn_answered (x.nextBeat data strobes)
  rw [exec_of_beatOffered hb ho, h.answered.takeBeat_decided (State.answered_open_of_open ho) (awaits_of_beatOffered h hb ho) hc
    (s.answered_mode.trans hm) (by rwa [State.answered_entries]), hqueue, halerts, State.answered_of_open ho]
  rfl

theorem State.beatDecided_waitingBeat (hd : dispositionOn s.entries (x.nextBeat data strobes) ≠ .passed) :
    (s.beatDecided x data strobes).waitingBeat = none := by
  refine Option.eq_none_iff_forall_ne_some.mpr fun b hb => ?_
  obtain ⟨y, hy, hcurrent, hs⟩ := State.waitingBeat_iff.mp hb
  cases hy
  cases hcurrent
  exact hd (by simpa using hs)

/-- No grant comes of a beat that is not PASSED, or while the bus is busy. -/
theorem State.beatDecided_grant (h : s.trafficSound)
    (hn : dispositionOn s.entries (x.nextBeat data strobes) ≠ .passed ∨ s.port.bus ≠ none) :
    (s.beatDecided x data strobes).grant = s.beatDecided x data strobes := by
  cases hbus : s.port.bus with
  | some a => exact State.grant_of_busy hbus
  | none =>
    have hl : (s.beatDecided x data strobes).port.list = [] := (h.arbiter hbus).1
    exact (State.grant_of_nil (by exact hbus) hl).1 (State.beatDecided_waitingBeat (hn.resolve_right (by simp [hbus])))

/-- Settles O14: the beat is decided by `takeBeat_decided`; the group's events one by one; the grant is that of a PASSED
beat to a free bus, or none. -/
theorem unblockedBeatIsDecidedAtOnce : Obligations.UnblockedBeatIsDecidedAtOnce := by
  intro c s x data strobes hb htakes h hc hm addr op d hblocking
  have ho := s.takesBeats_iff.mp htakes
  have hawaits := awaits_of_beatOffered h hb ho
  have hstill : d ≠ .passed ∨ s.port.bus ≠ none → (s.beatDecided x data strobes).grant = s.beatDecided x data strobes :=
    State.beatDecided_grant h
  have hhost : (s.beatDecided x data strobes).host =
      some { x with current := some ⟨x.answered + 1, addr, op, .decided d⟩, held := d.ownAnswer } := rfl
  refine ⟨_, exec_of_unblocked hb ho h hc hm hblocking, ?_, ⟨decisionEvents s.entries addr op s.time.tickCounter d, ?_, ?_, rfl,
    decisionEvents_ascending _ _ _ _ _, fun ev => ?_⟩, fun hd => ?_, fun hd => ?_, fun hd a hbus => ?_, fun hd hbus => ?_⟩
  · rw [State.grant_frame]
    rfl
  · rw [State.grant_frame]
    rfl
  · rw [State.grant_frame]
    rfl
  · rw [mem_decisionEvents, h.examined.table.1]
    refine exists_congr fun i => exists_congr fun k => and_congr_right fun _ => and_congr_right fun hk => ?_
    exact tripEvent_iff hk i _ _ ev
  · rw [hstill (.inl (by simp [hd]))]
    rw [hd] at hhost
    exact ⟨rfl, hhost, State.hostAnswered_of_held hawaits.current hawaits.held (by simp) hhost⟩
  · rw [hstill (.inl (by simp [hd]))]
    rw [hd] at hhost
    refine ⟨rfl, hhost, (State.hostAnswered_of_held hawaits.current hawaits.held (course := x.course) (by simp) hhost).trans ?_⟩
    rfl
  · rw [hstill (.inr (by simp [hbus]))]
    rw [hd, Disposition.ownAnswer, ← hawaits.held] at hhost
    exact ⟨rfl, hhost⟩
  · have hl : (s.beatDecided x data strobes).port.list = [] := (h.arbiter hbus).1
    have hgrant := (State.grant_of_nil (s := s.beatDecided x data strobes) hbus hl).2 _ _ hhost rfl (by rw [hd])
    rw [hgrant, hd, Disposition.ownAnswer, ← hawaits.held]
    exact ⟨rfl, rfl⟩

end Outcomes

end Sys2Proof.Machine
end

section
/-! A supervisor reset of sound traffic (R2, R29, R93, R182): a held beat is released as PASSED, the access on the bus goes on. -/

namespace Sys2Proof.Machine

/-! ## The reset table -/

theorem Entry.judge_empty (addr : Addr) (op : BeatOp) : Entry.empty.judge addr op = .none Entry.empty :=
  Entry.judge_of_not_acting (.inl rfl)

theorem judged_resetEntries (addr : Addr) (op : BeatOp) : judged resetEntries addr op = resetEntries :=
  mapFrom_id fun _ e he => by rw [mem_resetEntries he, Entry.judge_empty]; rfl

theorem decisionEvents_resetEntries (addr : Addr) (op : BeatOp) (now : TickCount) (d : Disposition) :
    decisionEvents resetEntries addr op now d = [] :=
  collectFrom_eq_nil fun _ e he => by rw [mem_resetEntries he, Entry.judge_empty]; rfl

theorem dispositionOn_resetEntries (b : Beat) : dispositionOn resetEntries b = .passed := by
  have hactions : actionsOn resetEntries b.addr b.op = [] :=
    collectFrom_eq_nil fun _ e he => by rw [mem_resetEntries he, Entry.judge_empty]; rfl
  rw [dispositionOn, hactions]
  rfl

theorem blockingOf_resetEntries (addr : Addr) (dir : Direction) : blockingOf resetEntries addr dir = [] :=
  blockingOf_eq_nil (fun e he => by rw [mem_resetEntries he]; rfl) addr dir

/-! ## The release of a held beat (R29, R35) -/

theorem Transaction.released_of_held {x : Transaction} {b : Beat} (hb : x.current = some b) (hs : b.state = .held)
    (hh : x.held = none) : x.released = x.decidedAs b .passed := by
  rw [Transaction.decidedAs_eq, Disposition.ownAnswer, ← hh]
  simp [Transaction.released, hb, hs]

/-- Without a beat before the checker there is none to release. -/
theorem State.Examined.released_of_calm {s : State} (h : s.Examined) (hb : s.beatAtChecker = none) :
    s.host.map Transaction.released = s.host := by
  cases hx : s.host with
  | none => rfl
  | some x =>
    have hreleased : x.released = x := by
      unfold Transaction.released
      cases hcurrent : x.current with
      | none => rw [Option.map_none, ← hcurrent]
      | some b =>
        have hne : b.state ≠ .held := fun hs => by
          obtain ⟨-, -, -, hok⟩ := (h.host x hx).2.beat b hcurrent
          simp only [Beat.answerSound, hs, decide_eq_true_eq] at hok
          have hp : s.Presents x b := ⟨hx, hcurrent, hok.1, .inr hs⟩
          cases hb.symm.trans hp.beatAtChecker
        rw [Option.map_some, if_neg hne, ← hcurrent]
    rw [Option.map_some, hreleased]

/-- The transaction with its held beat passed, if there is one. -/
theorem State.Examined.released_of_presents {s : State} {x : Transaction} {b : Beat} (h : s.Examined) (hp : s.Presents x b) :
    s.host.map Transaction.released = some (x.decidedAs b .passed) := by
  have hsound := (h.host x hp.host).2
  rw [hp.host, Option.map_some, Transaction.released_of_held hp.current (hp.held_of_sound hsound) (hp.held_none hsound.presented)]

/-- A beat that is held keeps the bus busy. -/
theorem State.trafficSound.bus_of_hold {s : State} (h : s.trafficSound) {b : Beat} (hb : s.beatAtChecker = some b) :
    ∃ a, s.port.bus = some a := by
  obtain ⟨hm, hblocking, -, -⟩ := h.examined.hold.2 b hb
  exact h.bus_of_blocking hm hblocking

/-! ## The reset -/

section Reset
variable {s : State}

theorem State.trafficSound.blocksReset_examine (h : s.trafficSound) :
    s.blocksReset.examine = { s.blocksReset with checker := none, host := s.host.map Transaction.released } := by
  cases hb : s.beatAtChecker with
  | none =>
    have hbeat : s.blocksReset.beatAtChecker = none := hb
    rw [State.examine_of_none hbeat, h.examined.released_of_calm hb, ← h.examined.hold.1 hb]
    rfl
  | some b =>
    obtain ⟨x, hp⟩ := State.beatAtChecker_iff.mp hb
    have hp' : s.blocksReset.Presents x b := ⟨hp.host, hp.current, hp.course, hp.state⟩
    have hraised : s.blocksReset.raisedOn b = s.blocksReset := by
      have hevents : decisionEvents s.blocksReset.entries b.addr b.op s.blocksReset.time.tickCounter
          (dispositionOn s.blocksReset.entries b) = [] := decisionEvents_resetEntries _ _ _ _
      rw [State.raisedOn, hevents]
      rfl
    have hentries : s.blocksReset.entries = resetEntries := rfl
    rw [State.examine_decided hp' (hp.held_none (h.unsettled.host x hp.host).2) rfl (blockingOf_resetEntries _ _), hraised,
      hentries, judged_resetEntries, dispositionOn_resetEntries, h.examined.released_of_presents hp]
    rfl

/-- A supervisor reset, block by block. -/
theorem State.trafficSound.supervisorReset_eq (h : s.trafficSound) :
    s.supervisorReset = { s with
      mode := .monitoring, entries := resetEntries, checker := none
      host := s.host.map Transaction.released
      port := ⟨[], s.port.bus.map Access.afterSupervisorReset, none⟩
      queue := .reset, alerts := .reset } := by
  have hexamined := h.blocksReset.examine
  have hexamine := h.blocksReset_examine
  rw [hexamine] at hexamined
  have hroom : State.roomSound { s.blocksReset with checker := none, host := s.host.map Transaction.released } :=
    fun _ _ e he => by rw [mem_resetEntries he]; exact nofun
  rw [State.supervisorReset_eq, State.settle, hexamine, hexamined.fill_eq hroom]
  cases hbus : s.port.bus with
  | some a =>
    rw [State.grant_of_busy (a := a.afterSupervisorReset)]
    · simp only [State.blocksReset, hbus]
    · simp [State.blocksReset, hbus]
  | none =>
    have hcalm : s.beatAtChecker = none := Option.eq_none_iff_forall_ne_some.mpr fun b hb => by
      obtain ⟨a, ha⟩ := h.bus_of_hold hb
      cases hbus.symm.trans ha
    rw [h.examined.released_of_calm hcalm]
    have hw : State.waitingBeat { s.blocksReset with checker := none, host := s.host } = none := (h.arbiter hbus).2
    rw [(State.grant_of_nil (by simp [State.blocksReset, hbus]) (by rfl)).1 hw]
    simp only [State.blocksReset, hbus]

/-- An answer held is given, or none is held as the host port is closed. -/
theorem State.trafficSound.answered_eq (h : s.trafficSound) :
    s.answered = { s with host := s.hostAnswered, out := ⟨s.heldAnswer, none⟩ } := by
  cases ho : s.hostPortOpen with
  | true => exact State.answered_of_open ho
  | false =>
    have hnone : s.host = none := Option.eq_none_iff_forall_ne_some.mpr fun x hx => by
      cases ho.symm.trans (h.examined.host x hx).1
    rw [State.answered_of_closed ho]
    simp only [State.quiet, State.hostAnswered, State.heldAnswer, hnone, Outputs.none]

theorem exec_srstnFall_of_high (h : s.pins.srstnLow = false) : exec .srstnFall s = .next s.answered.takeSrstnFall := by
  simp [exec, execSrstnFall, h, State.atBclk_eq]

theorem exec_srstnFall_of_low (h : s.pins.srstnLow = true) : exec .srstnFall s = .next s.answered := by
  simp [exec, execSrstnFall, h, State.atBclk_eq]

theorem Link.afterSrstnFall_facts (l : Link) (csnLow : Bool) :
    (l.afterSrstnFall csnLow).phase = (if csnLow then .trailing else .idle) ∧ (l.afterSrstnFall csnLow).payload = [] ∧
      (l.afterSrstnFall csnLow).response = [] ∧ (l.afterSrstnFall csnLow).resetPending = false := by
  cases csnLow <;> exact ⟨rfl, rfl, rfl, rfl⟩

/-- Settles O11: the reset block by block, the filter by its two samples. -/
theorem srstnFallIsASupervisorReset : Obligations.SrstnFallIsASupervisorReset := by
  intro s
  refine ⟨fun h hp hlow => ?_, fun n hp hlow => ?_, exec_srstnFall_of_low, fun low => ⟨State.sampleSrstn_of_steady, ?_, ?_⟩⟩
  · refine ⟨_, exec_srstnFall_of_high hlow, ?_, ?_⟩
    all_goals rw [State.takeSrstnFall_of_running (s.answered_power.trans hp)]
    · rw [h.answered.supervisorReset_eq, h.answered_eq]
      rfl
    · rw [State.answered_pins]
      exact Link.afterSrstnFall_facts _ _
  · have hclosed := State.answered_of_closed (State.hostPortOpen_of_not_running (s := s) (by simp [hp]))
    rw [exec_srstnFall_of_high hlow, hclosed, State.takeSrstnFall]
    simp only [State.quiet_power, hp]
    rfl
  · rintro rfl hsample hlow
    rw [exec_srstnFall_of_high hlow, State.sampleSrstn, if_pos ⟨by rw [State.answered_pins, hsample], by simp [hlow]⟩, if_pos rfl]
  · rintro rfl hsample hlow
    rw [exec_srstnRise_of_low hlow, State.sampleSrstn, if_pos ⟨by rw [State.answered_pins, hsample], by simp [hlow]⟩, if_neg (by decide)]

/-! ## Select periods (R155, R157, R162, R179) -/

theorem exec_csnFall_of_running (hc : s.pins.csnLow = false) (hp : s.power = .running) :
    exec .csnFall s = .next { s.quiet with
      pins := { s.pins with csnLow := true, sdo := some false }
      link := { Link.idle with phase := if s.pins.srstnLow then .trailing else .request } } := by
  simp [exec, execCsnFall, hc, hp]

theorem exec_csnFall_early (hc : s.pins.csnLow = false) (hp : s.power ≠ .running) :
    exec .csnFall s = .next { s.quiet with pins := { s.pins with csnLow := true } } := by
  cases h : s.power with
  | running => exact absurd h hp
  | powerUpReset => simp [exec, execCsnFall, hc, h]
  | initialising n => simp [exec, execCsnFall, hc, h]

theorem exec_csnRise_of_low (hc : s.pins.csnLow = true) :
    exec .csnRise s = .next (if s.link.resetPending then s.deselected.supervisorReset else s.deselected) := by
  simp only [exec, execCsnRise, hc, if_true]
  split <;> rfl

/-- Settles O39: the two edges of CSN, with the reset that a RESET PART asked for. -/
theorem selectPeriodBeginsAndEnds : Obligations.SelectPeriodBeginsAndEnds := by
  intro s
  refine ⟨fun hc hp => ⟨_, exec_csnFall_of_running hc hp, rfl, rfl, rfl, rfl, rfl, rfl, rfl, rfl⟩, exec_csnFall_early,
    fun hc hr => ⟨s.deselected, ?_, rfl, rfl, rfl, rfl, rfl, rfl⟩, fun h hc hr => ⟨s.deselected.supervisorReset, ?_, ?_⟩⟩
  · rw [exec_csnRise_of_low hc, hr]
    rfl
  · rw [exec_csnRise_of_low hc, if_pos hr]
  · have hdeselected : s.deselected.trafficSound := h.congr rfl rfl rfl rfl rfl fun _ _ => id
    rw [hdeselected.supervisorReset_eq]
    exact ⟨rfl, rfl, rfl, rfl, rfl, rfl⟩

end Reset

end Sys2Proof.Machine
end

section
/-! Settling in the words of the claims: the list refilled (R14, R61), the beat examined again (R34), the order of the places
taken, and the bus handed on (R67). -/

namespace Sys2Proof.Machine

/-! ## The list refilled -/

/-- Requests of the same entries, those of other than the blocking ones in the same order, are promoted alike. -/
theorem sameGroups_placed {blocking is js : List Nat} {f : Nat → FetchRequest}
    (hf : ∀ i, (f i).entry = i ∧ (f i).status = .queued) (his : is.Nodup) (hjs : js.Nodup) (hmem : ∀ i, i ∈ is ↔ i ∈ js)
    (hothers : (is.filter fun i => !blocking.contains i) = js.filter fun i => !blocking.contains i) :
    SameGroups blocking (is.map f) (js.map f) := by
  have hqueued : ∀ ks : List Nat, ∀ r ∈ ks.map f, r.status = .queued := fun ks r hr => by
    obtain ⟨i, -, rfl⟩ := List.mem_map.mp hr
    exact (hf i).2
  have hfilter : ∀ (ks : List Nat) (p : Nat → Bool), ((ks.map f).filter fun r => p r.entry) = (ks.filter p).map f := fun ks p => by
    rw [List.filter_map]
    congr 1
    exact List.filter_congr fun i _ => by simp [hf i]
  have hone : ∀ {ks : List Nat}, ks.Nodup → ∀ i, (ks.filter fun j => decide (j = i)).Pairwise (· < ·) := fun hks i => by
    refine (hks.filter _).imp_of_mem fun ha hb hne => absurd ?_ hne
    rw [of_decide_eq_true (List.mem_filter.mp ha).2, of_decide_eq_true (List.mem_filter.mp hb).2]
  refine ⟨?_, fun i _ => ?_, ?_⟩
  · rw [issuedOf_of_queued (hqueued is), issuedOf_of_queued (hqueued js)]
  · rw [queuedOf_of_queued (hqueued is), queuedOf_of_queued (hqueued js), hfilter is fun j => decide (j = i),
      hfilter js fun j => decide (j = i)]
    congr 1
    exact eq_of_ascending (hone his i) (hone hjs i) fun j => by rw [List.mem_filter, List.mem_filter, hmem]
  · rw [othersOf, othersOf, queuedOf_of_queued (hqueued is), queuedOf_of_queued (hqueued js),
      hfilter is fun j => !blocking.contains j, hfilter js fun j => !blocking.contains j, hothers]

theorem State.blocking_eq (s : State) : s.blocking = (s.checker.map Decision.blocking).getD [] := by
  unfold State.blocking
  cases s.checker <;> rfl

theorem State.blocking_contains (s : State) (i : Nat) : s.blocking.contains i = s.checker.any fun d => d.blocking.contains i := by
  unfold State.blocking
  cases s.checker <;> rfl

/-- The requests in any order that keeps ascending those of entries that do not block the held beat. -/
theorem State.refilled_eq {s t : State} {rest : List FetchRequest} {is : List Nat} (hn : is.Nodup)
    (hmem : ∀ i, i ∈ is ↔ i < entryCount ∧ (s.entry i).state ≠ .fetching ∧ (t.entry i).state = .fetching)
    (hsorted : (is.filter fun i => !t.blocking.contains i).Pairwise (· < ·)) :
    s.refilled t rest = promotedFor t.checker (rest ++ is.map fun i => (s.entry i).request i) := by
  have hrange : ((List.range entryCount).filter fun i =>
      decide ((s.entry i).state ≠ .fetching) && decide ((t.entry i).state = .fetching)).Pairwise (· < ·) :=
    List.pairwise_lt_range.filter _
  have hsame : ∀ i, i ∈ is ↔ i ∈ (List.range entryCount).filter fun i =>
      decide ((s.entry i).state ≠ .fetching) && decide ((t.entry i).state = .fetching) := fun i => by
    rw [hmem, List.mem_filter, List.mem_range, Bool.and_eq_true, decide_eq_true_eq, decide_eq_true_eq]
  have hothers := eq_of_ascending hsorted (hrange.filter fun i => !t.blocking.contains i) fun i => by
    rw [List.mem_filter, List.mem_filter, hsame]
  unfold State.refilled promotedFor
  cases hc : t.checker with
  | none =>
    have hblocking : t.blocking = [] := by rw [State.blocking_eq, hc]; rfl
    have hself : ∀ ks : List Nat, (ks.filter fun i => !t.blocking.contains i) = ks := fun ks =>
      List.filter_eq_self.mpr fun i _ => by rw [hblocking]; rfl
    rw [hself, hself] at hothers
    rw [hothers]
    rfl
  | some d =>
    have hblocking : t.blocking = d.blocking := by rw [State.blocking_eq, hc]; rfl
    rw [hblocking] at hothers
    exact ((SameGroups.refl d.blocking rest).append (sameGroups_placed (fun i => ⟨rfl, rfl⟩) hn (hrange.imp Nat.ne_of_lt) hsame
      hothers)).promoted_eq.symm

/-- Of the entries that take places those that do not block the held beat ascend. -/
theorem State.placed_others_sorted (s : State) : (s.placed.filter fun i => !s.blocking.contains i).Pairwise (· < ·) := by
  have hpending : (s.pendingInOrder.filter fun i => !s.blocking.contains i).Pairwise (· < ·) := by
    have hnone : ((s.pendings.filter fun i => s.blocking.contains i).filter fun i => !s.blocking.contains i) = [] :=
      List.filter_eq_nil_iff.mpr fun i hi => by simpa using (List.mem_filter.mp hi).2
    rw [State.pendingInOrder_eq, List.filter_append, hnone, List.nil_append]
    exact (s.pendings_sorted.filter _).filter _
  exact hpending.sublist (s.placed_sublist.filter _)

/-! ## The stages of settling -/

/-- The state before the grant at the end of settling. -/
def State.filled (p : State) : State := p.examine.fill

theorem State.settle_eq_grant (p : State) : p.settle = p.filled.grant := rfl

theorem State.settle_entries (p : State) : p.settle.entries = p.filled.entries := by rw [State.settle_eq_grant, State.grant_frame]

theorem State.settle_checker (p : State) : p.settle.checker = p.examine.checker := by
  rw [State.settle_eq_grant, State.grant_frame]
  exact State.fill_checker _

theorem State.settle_queue (p : State) : p.settle.queue = p.examine.queue := by
  rw [State.settle_eq_grant, State.grant_frame, State.filled, State.fill_frame]

theorem State.settle_alerts (p : State) : p.settle.alerts = p.examine.alerts := by
  rw [State.settle_eq_grant, State.grant_frame, State.filled, State.fill_frame]

theorem State.filled_frame (p : State) :
    p.filled =
      { p with entries := p.filled.entries, checker := p.filled.checker, host := p.filled.host
               port := { p.port with list := p.filled.port.list }, queue := p.filled.queue, alerts := p.filled.alerts } := by
  unfold State.filled
  rw [State.fill_frame]
  unfold State.examine
  split
  · rfl
  · unfold State.examineBeat
    split
    · rw [State.dispose_frame]
    · dsimp only
      split
      · rw [State.decideBeat_frame]
      · rw [State.promote_frame]; rfl

theorem State.filled_host (p : State) : p.filled.host = p.examine.host := State.fill_host _

theorem State.filled_bus (p : State) : p.filled.port.bus = p.port.bus := by rw [State.filled_frame]

theorem State.filled_lastGrant (p : State) : p.filled.port.lastGrant = p.port.lastGrant := by rw [State.filled_frame]

theorem State.mode_cases (s : State) : s.mode = .monitoring ∨ s.mode = .suspended := by
  cases s.mode
  · exact .inl rfl
  · exact .inr rfl

namespace State.Unsettled
variable {p : State}

theorem filled (h : p.Unsettled) : p.filled.Examined := h.examine.fill

/-- The three outcomes of an examination: no beat before the checker, one decided, or one held. -/
theorem examine_cases (h : p.Unsettled) :
    p.beatAtChecker = none ∧ p.examine = p ∨
      ∃ x b, p.Presents x b ∧ x.held = none ∧
        (p.mode = .suspended ∧ p.examine = { p with checker := none, host := some (x.decidedAs b .passed) } ∨
          p.mode = .monitoring ∧ blockingOf p.entries b.addr b.op.dir = [] ∧
            p.examine = { p with
              checker := none, entries := judged p.entries b.addr b.op, queue := (p.raisedOn b).queue
              alerts := (p.raisedOn b).alerts, host := some (x.decidedAs b (dispositionOn p.entries b)) } ∨
          p.mode = .monitoring ∧ blockingOf p.entries b.addr b.op.dir ≠ [] ∧
            p.examine = { p with
              checker := some (decisionOn p.entries b), host := some { x with current := some { b with state := .held } }
              port := { p.port with list := promoted (blockingOf p.entries b.addr b.op.dir) p.port.list } }) := by
  cases hb : p.beatAtChecker with
  | none => exact .inl ⟨rfl, State.examine_of_none hb⟩
  | some b =>
    obtain ⟨x, hp⟩ := State.beatAtChecker_iff.mp hb
    have hheld := hp.held_none (h.host x hp.host).2
    refine .inr ⟨x, b, hp, hheld, ?_⟩
    rcases p.mode_cases with hm | hm
    · by_cases hblocking : blockingOf p.entries b.addr b.op.dir = []
      · exact .inr (.inl ⟨hm, hblocking, State.examine_decided hp hheld hm hblocking⟩)
      · exact .inr (.inr ⟨hm, hblocking, State.examine_held hp hm hblocking⟩)
    · exact .inl ⟨hm, State.examine_suspended hp hheld hm⟩

/-- An examination promotes the list by the decision that it leaves, and moves the counts of the table at most. -/
theorem examine_list (h : p.Unsettled) :
    p.examine.port.list = promotedFor p.examine.checker p.port.list ∧ SameRoles p.entries p.examine.entries := by
  rcases h.examine_cases with ⟨hb, he⟩ | ⟨x, b, -, -, ⟨-, he⟩ | ⟨-, -, he⟩ | ⟨-, -, he⟩⟩ <;> rw [he]
  · rw [h.idle hb]
    exact ⟨rfl, .refl _⟩
  · exact ⟨rfl, .refl _⟩
  · exact ⟨rfl, judged_sameRoles _ _ _⟩
  · exact ⟨rfl, .refl _⟩

theorem filled_list (h : p.Unsettled) :
    p.filled.port.list =
      promotedFor p.examine.checker (p.port.list ++ p.examine.placed.map fun i => (p.entry i).request i) := by
  obtain ⟨hlist, hroles⟩ := h.examine_list
  have hrequest : (fun i => (p.examine.entry i).request i) = fun i => (p.entry i).request i := funext fun i => by
    have hbase : (p.examine.entry i).base = (p.entry i).base := Entry.base_congr (hroles.desc i).symm
    rw [Entry.request, Entry.request, hbase]
  rw [State.filled, State.fill_list h.examine.hold, hlist, hrequest]
  cases hc : p.examine.checker with
  | none => rfl
  | some d =>
    exact ((promoted_sameGroups (h.examine.blocking_nodup d hc) p.port.list).append (SameGroups.refl _ _)).promoted_eq

theorem filled_entry (h : p.Unsettled) (i : Nat) :
    ((p.filled.entry i).state = .fetching ↔ (p.entry i).state = .fetching ∨ i ∈ p.examine.placed) ∧
      (i ∈ p.examine.placed → (p.entry i).state = .pending) := by
  obtain ⟨-, hroles⟩ := h.examine_list
  have hrole := hroles.role i
  refine ⟨?_, fun hi => (EntryState.pending_of_role hrole).mpr (State.pending_of_placed hi).2⟩
  rw [State.filled, State.fill_entry]
  by_cases hi : i ∈ p.examine.placed
  · simp [hi]
  · simp only [hi, if_false, or_false]
    exact (EntryState.fetching_of_role hrole).symm

/-- The list before the grant is that of the state before, refilled. -/
theorem refilled (h : p.Unsettled) {s t : State} (hentries : t.entries = p.filled.entries) (hchecker : t.checker = p.examine.checker)
    (hfetching : ∀ i, (t.entry i).state = .fetching → ((s.entry i).state = .fetching ↔ (p.entry i).state = .fetching))
    (hbase : ∀ i, (p.entry i).state = .pending → (s.entry i).base = (p.entry i).base) :
    s.refilled t p.port.list = p.filled.port.list := by
  have hentry : ∀ i, t.entry i = p.filled.entry i := fun i => by rw [State.entry, State.entry, hentries]
  have hblocking : t.blocking = p.examine.blocking := by rw [State.blocking_eq, State.blocking_eq, hchecker]
  rw [State.refilled_eq (is := p.examine.placed) (State.placed_nodup _) (fun i => ?_) (hblocking ▸ State.placed_others_sorted _),
    h.filled_list, hchecker]
  · congr 2
    refine List.map_congr_left fun i hi => ?_
    rw [Entry.request, Entry.request, hbase i ((h.filled_entry i).2 hi)]
  · obtain ⟨hiff, hpending⟩ := h.filled_entry i
    constructor
    · intro hi
      have ht : (t.entry i).state = .fetching := by rw [hentry]; exact hiff.mpr (.inr hi)
      have hlt := (State.pending_of_placed hi).1
      rw [h.examine.table.1] at hlt
      refine ⟨hlt, fun hs => ?_, ht⟩
      cases (hpending hi).symm.trans ((hfetching i ht).mp hs)
    · rintro ⟨-, hs, ht⟩
      have hp := hiff.mp (hentry i ▸ ht)
      exact hp.resolve_left fun hf => hs ((hfetching i ht).mpr hf)

/-! ## The order of the places taken (R14) -/

theorem filledInOrder (h : p.Unsettled) {t : State} (hmode : t.mode = p.mode) (hentries : t.entries = p.filled.entries)
    (hchecker : t.checker = p.examine.checker) (hlength : t.port.list.length = p.filled.port.list.length) :
    t.filledInOrder p.entries := by
  intro hm blocks j hj
  obtain ⟨-, hroles⟩ := h.examine_list
  have hentry : ∀ i, t.entry i = p.examine.fill.entry i := fun i => by rw [State.entry, State.entry, hentries]; rfl
  have hm' : p.examine.mode = .monitoring := by rw [State.examine_frame]; exact hmode.symm.trans hm
  have hblocks : ∀ i, blocks i = p.examine.blocking.contains i := fun i => by
    rw [State.blocking_contains]
    simp only [blocks, hchecker]
  rw [hentry] at hj
  obtain ⟨hmem, hn, hfull⟩ := h.examine.fill_full hm' hj
  refine ⟨hlength.trans hfull, fun i hi ht => ?_⟩
  have hplaced : i ∈ p.examine.placed := by
    by_contra hnot
    rw [hentry, State.fill_entry, if_neg hnot] at ht
    have hp : (p.examine.entry i).state = .pending := (EntryState.pending_of_role (hroles.role i)).mp hi
    cases hp.symm.trans ht
  rw [hblocks, hblocks]
  exact State.placed_before hplaced hmem hn

/-! ## The beat examined again (R34) -/

theorem entry_filled (_h : p.Unsettled) {t : State} (hentries : t.entries = p.filled.entries) (i : Nat) :
    (p.examine.entry i).filled (t.entry i) := by
  have hentry : t.entry i = p.examine.fill.entry i := by rw [State.entry, State.entry, hentries]; rfl
  rw [hentry]
  exact p.examine.fill_filled i

theorem reexamined (h : p.Unsettled) {s t : State} (hhost : p.host = s.host) (hqueue : p.queue = s.queue)
    (halerts : p.alerts = s.alerts) (htime : p.time = s.time) (hm : ∀ b, p.beatAtChecker = some b → p.mode = .monitoring ∧ b.state = .held)
    (hentries : t.entries = p.filled.entries) (hchecker : t.checker = p.examine.checker) (htq : t.queue = p.examine.queue)
    (hta : t.alerts = p.examine.alerts) : s.reexamined p.entries t p.examine.host := by
  have hfilled := h.entry_filled hentries
  have hbeat : s.beatAtChecker = p.beatAtChecker := State.beatAtChecker_congr hhost.symm
  unfold State.reexamined
  rw [hbeat, hchecker, htq, hta]
  rcases h.examine_cases with ⟨hb, he⟩ | ⟨x, b, hp, hheld, ⟨hsuspended, -⟩ | ⟨-, hblocking, he⟩ | ⟨-, hblocking, he⟩⟩
  · rw [hb]
    rw [he] at hfilled ⊢
    have hcalm : p.checker = none ∧ p.queue = s.queue ∧ p.alerts = s.alerts ∧ p.host = s.host ∧
        ∀ i, (entryAt p.entries i).filled (t.entry i) := ⟨h.idle hb, hqueue, halerts, hhost, hfilled⟩
    cases hx : s.host <;> (rw [hx] at hcalm; exact hcalm)
  · cases hsuspended.symm.trans (hm b hp.beatAtChecker).1
  · rw [he] at hfilled ⊢
    rw [← hhost, hp.host, hp.beatAtChecker]
    dsimp only
    rw [if_pos hblocking]
    have hevents : p.raisedOn b = p.raise (decisionEvents p.entries b.addr b.op s.time.tickCounter (dispositionOn p.entries b)) := by
      rw [State.raisedOn, htime]
    rw [hevents]
    exact ⟨rfl, State.raise_queue_congr hqueue _, State.raise_alerts_congr hqueue halerts _, rfl, hfilled⟩
  · rw [he] at hfilled ⊢
    rw [← hhost, hp.host, hp.beatAtChecker]
    dsimp only
    rw [if_neg hblocking]
    have hstate := (hm b hp.beatAtChecker).2
    have hbeat : ({ b with state := .held } : Beat) = b := by rw [← hstate]
    refine ⟨rfl, hqueue, halerts, ?_, hfilled⟩
    rw [hbeat, ← hp.current]

end State.Unsettled

/-! ## The bus handed on (R67) -/

section HandsOn
variable {s t f : State} {rest : List FetchRequest}

theorem State.waitingBeat_isSome (s : State) :
    s.waitingBeat.isSome = s.host.any fun x => x.current.any fun b => decide (b.state = .decided .passed) := by
  unfold State.waitingBeat
  cases s.host with
  | none => rfl
  | some x =>
    cases hb : x.current with
    | none => simp [hb]
    | some b => by_cases hs : b.state = .decided .passed <;> simp [hb, hs]

/-- A grant of a free bus hands it on. -/
theorem State.handsOn_of_grant (hq : ∀ r ∈ f.port.list, r.status = .queued) (hbus : f.port.bus = none)
    (hlast : f.port.lastGrant = s.port.lastGrant) (hchecker : t.checker = f.checker) (hhost : t.host = f.grant.host)
    (hport : t.port = f.grant.port) (hlist : s.refilled t rest = f.port.list) : s.handsOn t rest f.host := by
  have hchoice := State.choice_of_queued hq
  have hblocks : (fun r : FetchRequest => f.blocking.contains r.entry) =
      fun r : FetchRequest => t.checker.any fun d => d.blocking.contains r.entry := funext fun r => by
    rw [State.blocking_contains, hchecker]
  rw [State.waitingBeat_isSome, hblocks, hlast] at hchoice
  unfold State.handsOn
  dsimp only
  rw [hlist, ← hchoice, hhost, hport]
  cases hc : f.choice with
  | none =>
    obtain ⟨h1, -, h3⟩ := arbiterChoice_eq_none (hchoice.symm.trans hc)
    rw [h1] at h3
    have hl : f.port.list = [] := by simpa using h3
    rw [State.grant_of_none hc]
    refine ⟨rfl, ?_⟩
    rw [← hl, ← hbus, ← hlast]
  | some k =>
    cases k with
    | kind2 =>
      have hw := arbiterChoice_kind2 ((State.choice_of_queued hq).symm.trans hc)
      obtain ⟨b, hb⟩ := Option.isSome_iff_exists.mp hw
      obtain ⟨x, hx, hcurrent, -⟩ := State.waitingBeat_iff.mp hb
      rw [State.grant_beat hbus hc hx hcurrent]
      exact ⟨x, b, hx, hcurrent, rfl, rfl⟩
    | kind1 =>
      cases hl : f.port.list with
      | nil => simpa [hl] using arbiterChoice_head ((State.choice_of_queued hq).symm.trans hc) nofun
      | cons r tail =>
        rw [State.grant_head hbus hc nofun hl]
        exact ⟨r, tail, rfl, rfl, rfl⟩
    | kind3 =>
      cases hl : f.port.list with
      | nil => simpa [hl] using arbiterChoice_head ((State.choice_of_queued hq).symm.trans hc) nofun
      | cons r tail =>
        rw [State.grant_head hbus hc nofun hl]
        exact ⟨r, tail, rfl, rfl, rfl⟩

/-- A free bus is handed on, and an access on the bus goes on. -/
theorem State.carriesOn_of_grant (hf : f.Examined) (hbus : f.port.bus = s.port.bus) (hlast : f.port.lastGrant = s.port.lastGrant)
    (hchecker : t.checker = f.checker) (hhost : t.host = f.grant.host) (hport : t.port = f.grant.port)
    (hlist : s.refilled t rest = f.port.list) : s.carriesOn t rest f.host := by
  unfold State.carriesOn
  split
  · next hfree =>
    have hfree' := hbus.trans hfree
    exact State.handsOn_of_grant (hf.queued_of_free hfree').queued hfree' hlast hchecker hhost hport hlist
  · next hbusy =>
    obtain ⟨a, ha⟩ := Option.ne_none_iff_exists'.mp hbusy
    have hgrant := State.grant_of_busy (hbus.trans ha)
    rw [hgrant] at hhost hport
    refine ⟨hhost, ?_⟩
    rw [hport, hlist, ← hbus, ← hlast]

end HandsOn

/-- An answer given leaves what the bus is handed on by. -/
theorem State.handsOn_answered {s t : State} {rest : List FetchRequest} {host : Option Transaction}
    (h : s.answered.handsOn t rest host) : s.handsOn t rest host := by
  rw [State.answered_frame] at h
  exact h

end Sys2Proof.Machine
end

section
/-! The end of a fetch (R15, R16, R64, R65, R73, R74), in the words of the claims. -/

namespace Sys2Proof.Machine

/-! ## The end of an access as a command brings it -/

section Ends
variable {s : State}

theorem exec_memoryReady (s : State) (data : Word) (error : Bool) :
    exec (.memoryReady data error) s = .next (s.answered.endAccess (if error then .memoryError else .completion data)) := by
  simp only [exec, execMemoryReady, State.atBclk_eq]

/-- The beat before the checker is the same once an answer has been given. -/
theorem State.trafficSound.answered_beatAtChecker (h : s.trafficSound) : s.answered.beatAtChecker = s.beatAtChecker := by
  have hhost : s.answered.host = s.hostAnswered := by rw [h.answered_eq]
  cases hx : s.host with
  | none =>
    rw [State.beatAtChecker_of_no_host hx, State.beatAtChecker_of_no_host (by rw [hhost, State.hostAnswered, hx])]
  | some x =>
    cases ha : x.held with
    | none => exact State.beatAtChecker_congr (by rw [hhost, State.hostAnswered, hx]; simp [ha])
    | some a =>
      rw [h.beatAtChecker_of_held hx ha]
      by_cases hlast : x.answered + 1 = x.len.beats
      · exact State.beatAtChecker_of_no_host (by rw [hhost, State.hostAnswered, hx]; simp [ha, hlast])
      · have hgiven : s.answered.host = some { x with
            answered := x.answered + 1, current := none, held := none
            course := if x.current.any fun b => decide (b.state = .decided .rejected) then .cut else x.course } := by
          rw [hhost, State.hostAnswered, hx]
          simp [ha, hlast]
        exact State.beatAtChecker_of_idle hgiven rfl

theorem State.answered_entry (s : State) (i : Nat) : s.answered.entry i = s.entry i := by
  rw [State.entry, State.answered_entries, State.entry]

/-- The end of the access on the bus, settled. -/
theorem State.answered_endAccess {a : Access} (hbus : s.port.bus = some a) (r : AccessEnd) :
    s.answered.endAccess r = (s.answered.afterAccess a r).settle :=
  State.endAccess_eq (by rw [State.answered_port, hbus]) r

/-- Everything that the end of an access changes. -/
theorem State.trafficSound.ended_frame (h : s.trafficSound) {a : Access} {t : State} {r : AccessEnd}
    (ht : t = (s.answered.afterAccess a r).settle) :
    t = { s with entries := t.entries, checker := t.checker, host := t.host, port := t.port, queue := t.queue
                 alerts := t.alerts, out := ⟨s.heldAnswer, none⟩ } := by
  subst ht
  rw [State.settle_frame, State.afterAccess_frame, h.answered_eq]

end Ends

/-! ## The examination of a beat that stays held -/

/-- The decision in progress of sound traffic is that of its table. -/
theorem State.Examined.checker_eq {s : State} (h : s.Examined) : s.checker = s.beatAtChecker.map (decisionOn s.entries) := by
  cases hb : s.beatAtChecker with
  | none => exact h.hold.1 hb
  | some b => exact (h.hold.2 b hb).2.2.1

section Still
variable {p v : State}

/-- A beat that was held and stays blocked stays held, and nothing else comes of its examination. -/
theorem State.Unsettled.still_held (h : p.Unsettled) (hv : v.Examined) (hbeat : p.beatAtChecker = v.beatAtChecker)
    (hsound : ∀ x, p.host = some x → x.Sound) (hmode : p.mode = v.mode)
    (hb : ∀ b, v.beatAtChecker = some b → blockingOf p.entries b.addr b.op.dir ≠ []) :
    p.examine = { p with
      checker := v.beatAtChecker.map (decisionOn p.entries), port := { p.port with list := p.examine.port.list } } := by
  rcases h.examine_cases with ⟨hnone, he⟩ | ⟨x, b, hp, -, hrest⟩
  · rw [he, ← hbeat, hnone, Option.map_none, ← h.idle hnone]
  · have hvb := hbeat.symm.trans hp.beatAtChecker
    obtain ⟨hm, -, -, -⟩ := hv.hold.2 b hvb
    have hstate := State.Presents.held_of_sound hp (hsound x hp.host)
    rcases hrest with ⟨hsuspended, -⟩ | ⟨-, hblocking, -⟩ | ⟨-, -, he⟩
    · cases hsuspended.symm.trans (hmode.trans hm)
    · exact absurd hblocking (hb b hvb)
    · have hhost' : some ({ x with current := some { b with state := .held } } : Transaction) = p.host := by
        have hbeat' : ({ b with state := .held } : Beat) = b := by rw [← hstate]
        rw [hbeat', hp.host, ← hp.current]
      rw [he, hvb, hhost']
      rfl

end Still

/-! ## The end of a fetch -/

section Fetch
variable {s : State} {a : Access} {q : FetchRequest} {rest : List FetchRequest}

/-- An entry that was not PENDING takes no place. -/
theorem State.Unsettled.entry_of_not_pending {p : State} (h : p.Unsettled) {t : State} (hentries : t.entries = p.filled.entries)
    {i : Nat} (hi : (p.entry i).state ≠ .pending) :
    t.entry i = p.examine.entry i := by
  obtain ⟨-, hroles⟩ := h.examine_list
  exact (h.entry_filled hentries i).of_not_pending fun hs => hi ((EntryState.pending_of_role (hroles.role i)).mpr hs)

/-- An examination keeps an entry but for its counts. -/
theorem State.Unsettled.examine_entry {p : State} (h : p.Unsettled) (i : Nat) :
    (p.examine.entry i).state = (p.entry i).state ∧ (p.examine.entry i).desc = (p.entry i).desc ∧
      (p.examine.entry i).rt.shadow = (p.entry i).rt.shadow ∧
      ((p.entry i).state ≠ .armed ∨ p.beatAtChecker = none → p.examine.entry i = p.entry i) := by
  rcases h.examine_cases with ⟨hb, he⟩ | ⟨x, b, hp, -, ⟨-, he⟩ | ⟨-, -, he⟩ | ⟨-, -, he⟩⟩ <;> rw [he]
  · exact ⟨rfl, rfl, rfl, fun _ => rfl⟩
  · exact ⟨rfl, rfl, rfl, fun _ => rfl⟩
  · have hentry : entryAt (judged p.entries b.addr b.op) i = ((p.entry i).judge b.addr b.op).entry :=
      entryAt_mapFrom_of_empty _ _ _ (by rw [Entry.judge_empty]; rfl)
    show (entryAt (judged _ _ _) i).state = _ ∧ (entryAt (judged _ _ _) i).desc = _ ∧ (entryAt (judged _ _ _) i).rt.shadow = _ ∧
      (_ → entryAt (judged _ _ _) i = _)
    rw [hentry]
    obtain ⟨hstate, hdesc, hshadow⟩ := (p.entry i).judge_keeps b.addr b.op
    refine ⟨hstate, hdesc, hshadow, fun hor => ?_⟩
    rcases hor with hne | hnone
    · rw [Entry.judge_of_not_acting (.inr (.inl hne))]
      rfl
    · cases hnone.symm.trans hp.beatAtChecker
  · exact ⟨rfl, rfl, rfl, fun _ => rfl⟩

/-- The bus handed on after an access: what is left of the list and of the transaction. -/
theorem State.Unsettled.settle_handsOn {p : State} (hp : p.Unsettled) (hbus : p.port.bus = none)
    (hlast : p.port.lastGrant = s.port.lastGrant)
    (hfetching : ∀ i, (p.settle.entry i).state = .fetching → ((s.entry i).state = .fetching ↔ (p.entry i).state = .fetching))
    (hbase : ∀ i, (p.entry i).state = .pending → (s.entry i).base = (p.entry i).base) :
    s.handsOn p.settle p.port.list p.examine.host := by
  rw [← State.filled_host]
  have hfree := p.filled_bus.trans hbus
  refine State.handsOn_of_grant (hp.filled.queued_of_free hfree).queued hfree (p.filled_lastGrant.trans hlast)
    (p.settle_checker.trans (State.fill_checker _).symm) rfl rfl ?_
  exact hp.refilled p.settle_entries p.settle_checker hfetching hbase

theorem State.grant_list_length (s : State) : s.grant.port.list.length = s.port.list.length := by
  have hhead : ∀ k, (s.issueHead k).port.list.length = s.port.list.length := fun k => by
    unfold State.issueHead
    split
    · rfl
    · next r rest hl => simp [hl]
  unfold State.grant
  split
  · rfl
  · split
    · rfl
    · exact hhead _
    · unfold State.issueBeat
      split <;> rfl
    · exact hhead _

theorem State.Unsettled.settle_filledInOrder {p : State} (hp : p.Unsettled) : p.settle.filledInOrder p.entries :=
  hp.filledInOrder p.settle_mode p.settle_entries p.settle_checker (State.grant_list_length _)

/-- The state after a fetch that is not orphaned, before it settles. -/
theorem State.afterAccess_fetch (how : a.owner = .fetch) (hl : s.port.list = q :: rest) (ho : q.orphaned = false) (r : AccessEnd) :
    s.afterAccess a r = { s with
      entries := s.entries.set q.entry ((s.entry q.entry).fetched r), port := { s.port with list := rest, bus := none }
      queue := (s.afterAccess a r).queue, alerts := (s.afterAccess a r).alerts } := by
  have heq : s.afterAccess a r = s.busFreed.endFetch r := by simp only [State.afterAccess, how, State.busFreed]
  have hend := State.endFetch_eq (s := s.busFreed) hl r
  rw [ho] at hend
  rw [heq]
  exact hend

/-- What the end of a fetch that is not orphaned brings: the bus is handed on, and places are filled. -/
theorem State.trafficSound.fetch_ended (h : s.trafficSound) (hbus : s.port.bus = some a) (how : a.owner = .fetch)
    (hl : s.port.list = q :: rest) (ho : q.orphaned = false) {r : AccessEnd} {p : State} (hpq : p = s.answered.afterAccess a r) :
    p.Unsettled ∧ p.entries = s.entries.set q.entry ((s.entry q.entry).fetched r) ∧
      s.handsOn p.settle rest p.examine.host ∧ p.settle.filledInOrder p.entries ∧
      p.settle.entry q.entry = p.examine.entry q.entry ∧ p.entry q.entry = (s.entry q.entry).fetched r ∧
      ∀ i, i ≠ q.entry → s.beatAtChecker = none → (s.entry i).filled (p.settle.entry i) := by
  have hv := h.answered
  have hp : p.Unsettled := hpq ▸ hv.examined.afterAccess_unsettled (by rw [State.answered_port, hbus]) r
  have hlist : s.answered.port.list = q :: rest := by rw [State.answered_port, hl]
  have hframe := State.afterAccess_fetch how hlist ho r
  rw [← hpq] at hframe
  have hentries : p.entries = s.entries.set q.entry ((s.entry q.entry).fetched r) := by
    rw [hframe, State.answered_entries, State.answered_entry]
  have hlt : q.entry < s.entries.length := by
    rw [h.examined.table.1]
    exact h.examined.fetch.entries q (hl ▸ List.mem_cons_self)
  have hentry : ∀ i, p.entry i = if q.entry = i then (s.entry q.entry).fetched r else s.entry i := fun i => by
    rw [State.entry, hentries, entryAt_set_of_lt hlt, ← State.entry]
  have hself : p.entry q.entry = (s.entry q.entry).fetched r := by rw [hentry, if_pos rfl]
  have hnot : (p.entry q.entry).state ≠ .pending := by
    rw [hself]
    rcases (s.entry q.entry).fetched_state r with hs | hs <;> simp [hs]
  have hstays := hp.entry_of_not_pending p.settle_entries hnot
  refine ⟨hp, hentries, ?_, hp.settle_filledInOrder, hstays, hself, fun i hi hb => ?_⟩
  · have hrest : p.port.list = rest := by rw [hframe]
    rw [← hrest]
    refine hp.settle_handsOn (by rw [hframe]) (by rw [hframe, State.answered_port]) (fun i hi => ?_) fun i _ => ?_
    · by_cases hiq : q.entry = i
      · subst hiq
        rw [hstays, (hp.examine_entry _).1, hself] at hi
        rcases (s.entry q.entry).fetched_state r with hs | hs <;> cases hs.symm.trans hi
      · rw [hentry, if_neg hiq]
    · rw [hentry]
      split
      · next hiq => subst hiq; exact (Entry.base_congr (Entry.fetched_desc _ r)).symm
      · rfl
  · have hpb : p.beatAtChecker = none := by
      have hhost : p.host = s.answered.host := by rw [hframe]
      rw [State.beatAtChecker_congr hhost, h.answered_beatAtChecker, hb]
    have hfilled := hp.entry_filled p.settle_entries i
    rw [(hp.examine_entry i).2.2.2 (.inr hpb), hentry, if_neg (Ne.symm hi)] at hfilled
    exact hfilled

/-- The beat examined again after a fetch, as long as the part is in MONITORING. -/
theorem State.trafficSound.fetch_reexamined (h : s.trafficSound) {p u : State} (hp : p.Unsettled) (hhost : p.host = s.host)
    (hmode : p.mode = s.mode) (hu : u.host = s.host) (hqueue : p.queue = u.queue) (halerts : p.alerts = u.alerts)
    (htime : p.time = u.time) : u.reexamined p.entries p.settle p.examine.host := by
  refine hp.reexamined (hhost.trans hu.symm) hqueue halerts htime (fun b hb => ?_) p.settle_entries p.settle_checker p.settle_queue
    p.settle_alerts
  have hsb := (State.beatAtChecker_congr hhost).symm.trans hb
  obtain ⟨x, hpres⟩ := State.beatAtChecker_iff.mp hsb
  exact ⟨hmode.trans (h.examined.hold.2 b hsb).1, hpres.held_of_sound (h.examined.host x hpres.host).2⟩

/-- Settles O24: the entry armed, the held beat examined with it, and the bus handed on. -/
theorem fetchCompletionArmsItsEntry : Obligations.FetchCompletionArmsItsEntry := by
  intro s a q rest data h hbus how hl ho es
  obtain ⟨p, hpq⟩ : ∃ p, p = s.answered.afterAccess a (.completion data) := ⟨_, rfl⟩
  obtain ⟨hp, hentries, hhands, horder, hstays, hself, hothers⟩ := h.fetch_ended hbus how hl ho hpq
  have hquiet : p.queue = s.answered.queue ∧ p.alerts = s.answered.alerts := by
    have hlist : s.answered.busFreed.port.list = q :: rest := by rw [State.busFreed, State.answered_port, hl]
    have heq : p = s.answered.busFreed.endFetch (.completion data) := by
      rw [hpq]
      simp only [State.afterAccess, how, State.busFreed]
    rw [heq, State.endFetch_completed hlist ho]
    exact ⟨rfl, rfl⟩
  have hframe : p.host = s.answered.host ∧ p.mode = s.answered.mode ∧ p.time = s.answered.time := by
    rw [hpq, State.afterAccess_fetch how (by rw [State.answered_port, hl]) ho]
    exact ⟨rfl, rfl, rfl⟩
  have hexamine := hp.examine_entry q.entry
  rw [hself] at hexamine
  refine ⟨p.settle, ?_, h.ended_frame (r := .completion data) (by rw [hpq]), ⟨p.examine.host, ?_, hhands⟩, ?_, ?_, ?_, fun hb => ?_,
    hothers⟩
  · rw [exec_memoryReady, State.answered_endAccess hbus, hpq]
    rfl
  · have hre := h.answered.fetch_reexamined hp hframe.1 hframe.2.1 rfl hquiet.1 hquiet.2 hframe.2.2
    rwa [hentries] at hre
  · rwa [hentries] at horder
  · rw [hstays, hexamine.1]
    rfl
  · rw [hstays, hexamine.2.2.1]
    rfl
  · have hpb : p.beatAtChecker = none := by
      rw [State.beatAtChecker_congr hframe.1, h.answered_beatAtChecker, hb]
    rw [hstays, hexamine.2.2.2 (.inr hpb), ← hself, State.entry, hentries]
    rfl

/-- What a fetch without a completion makes of queue and alerts. -/
theorem State.failFetch_raises {v u : State} {detail : BitVec 16} {ev : Event} (hev : v.fetchFailed q detail = ev)
    (hqueue : v.queue = u.queue) (halerts : v.alerts = u.alerts) :
    (v.failFetch q detail).queue = (u.raise [ev]).queue ∧ (v.failFetch q detail).alerts = (u.raise [ev]).alerts := by
  subst hev
  rw [State.failFetch]
  exact ⟨State.raise_queue_congr (by exact hqueue) _, State.raise_alerts_congr (by exact hqueue) (by exact halerts) _⟩

/-- Settles O25: the entry loaded, its event raised, the held beat examined without it, and the bus handed on. -/
theorem fetchFailureLoadsItsEntry : Obligations.FetchFailureLoadsItsEntry := by
  intro s a q rest data h hbus how hl ho c detail hc es u
  obtain ⟨r, hr, hexec⟩ : ∃ r, (r = AccessEnd.memoryError ∧ detail = 1 ∨ r = .responseLimit ∧ detail = 2) ∧
      exec c s = .next (s.answered.endAccess r) := by
    rcases hc with ⟨rfl, hd⟩ | ⟨rfl, hd⟩
    · exact ⟨_, .inl ⟨rfl, hd⟩, exec_memoryReady s data true⟩
    · exact ⟨_, .inr ⟨rfl, hd⟩, exec_responseLimit s⟩
  obtain ⟨p, hpq⟩ : ∃ p, p = s.answered.afterAccess a r := ⟨_, rfl⟩
  obtain ⟨hp, hentries, hhands, horder, hstays, hself, hothers⟩ := h.fetch_ended hbus how hl ho hpq
  have hfetched : (s.entry q.entry).fetched r = (s.entry q.entry).restarted .loaded := by
    rcases hr with ⟨rfl, -⟩ | ⟨rfl, -⟩ <;> rfl
  rw [hfetched] at hentries hself
  have haddr : q.addr = a.addr := by
    obtain ⟨q', hq', haddr⟩ := h.examined.access.fetch a hbus how
    rw [hl] at hq'
    cases hq'
    exact haddr
  have hraised : p.queue = u.queue ∧ p.alerts = u.alerts := by
    have hlist : s.answered.busFreed.port.list = q :: rest := by rw [State.busFreed, State.answered_port, hl]
    have heq : p = s.answered.busFreed.endFetch r := by
      rw [hpq]
      simp only [State.afterAccess, how, State.busFreed]
    have hevent : ∀ v : State, v.entry q.entry = s.entry q.entry → v.time = s.time →
        v.fetchFailed q detail = { kind := .fetchFailed, cls := (s.entry q.entry).cls, tick := s.time.tickCounter,
                                   entry := some q.entry, address := some a.addr, detail := some detail } := fun v he ht => by
      rw [State.fetchFailed, he, ht, haddr]
    rw [heq]
    rcases hr with ⟨rfl, rfl⟩ | ⟨rfl, rfl⟩
    · rw [State.endFetch_memoryError hlist ho]
      exact State.failFetch_raises (hevent _ (s.answered_entry _) s.answered_time) rfl rfl
    · rw [State.endFetch_responseLimit hlist ho]
      exact State.failFetch_raises (hevent _ (s.answered_entry _) s.answered_time) rfl rfl
  have hframe : p.host = s.answered.host ∧ p.mode = s.answered.mode ∧ p.time = s.answered.time := by
    rw [hpq, State.afterAccess_fetch how (by rw [State.answered_port, hl]) ho]
    exact ⟨rfl, rfl, rfl⟩
  have hu : u.host = s.answered.host ∧ u.time = s.answered.time := by
    simp only [u]
    rw [State.raise_frame]
    exact ⟨rfl, rfl⟩
  refine ⟨p.settle, ?_, h.ended_frame (r := r) (by rw [hpq]), ⟨p.examine.host, ?_, hhands⟩, ?_, ?_, hothers⟩
  · rw [hexec, State.answered_endAccess hbus, hpq]
  · have hre := h.answered.fetch_reexamined hp hframe.1 hframe.2.1 hu.1 hraised.1 hraised.2 (hframe.2.2.trans hu.2.symm)
    rwa [hentries] at hre
  · rwa [hentries] at horder
  · have hexamine := (hp.examine_entry q.entry).2.2.2 (.inl (by rw [hself]; exact nofun))
    rw [hstays, hexamine, hself]

/-- The state after an access without an effect on table or events, before it settles. -/
theorem State.afterAccess_silent (hs : a.owner = .strayFetch ∨ a.owner = .fetch ∧ ∃ r ∈ s.port.list.head?, r.orphaned = true)
    (r : AccessEnd) :
    s.afterAccess a r =
      { s with port := { s.port with bus := none, list := if a.owner = .fetch then s.port.list.tail else s.port.list } } := by
  rcases hs with how | ⟨how, q, hq, ho⟩
  · simp [State.afterAccess, how]
  · obtain ⟨rest, hl⟩ : ∃ rest, s.port.list = q :: rest := List.head?_eq_some_iff.mp hq
    have heq : s.afterAccess a r = s.busFreed.endFetch r := by simp only [State.afterAccess, how, State.busFreed]
    rw [heq, State.endFetch_of_orphaned (s := s.busFreed) hl ho, if_pos how, hl]
    rfl

/-- Settles O26: the table and the events stay, a held beat stays held, and the bus is handed on. -/
theorem orphanedFetchEndsSilently : Obligations.OrphanedFetchEndsSilently := by
  intro s c h hc
  obtain ⟨r, hexec⟩ : ∃ r, exec c s = .next (s.answered.endAccess r) := by
    rcases hc with rfl | ⟨data, error, rfl⟩
    · exact ⟨_, exec_responseLimit s⟩
    · exact ⟨_, exec_memoryReady s data error⟩
  refine ⟨fun a hbus hs => ?_, fun hbus => ?_⟩
  · obtain ⟨p, hpq⟩ : ∃ p, p = s.answered.afterAccess a r := ⟨_, rfl⟩
    have hv := h.answered
    have hp : p.Unsettled := hpq ▸ hv.examined.afterAccess_unsettled (by rw [State.answered_port, hbus]) r
    have hframe := State.afterAccess_silent (s := s.answered) (by rw [State.answered_port]; exact hs) r
    rw [← hpq, State.answered_port] at hframe
    have hentries : p.entries = s.entries := by rw [hframe, State.answered_entries]
    have hentry : ∀ i, p.entry i = s.entry i := fun i => by rw [State.entry, hentries, State.entry]
    have hsame : p.host = s.answered.host := by rw [hframe]
    have hstill := hp.still_held hv.examined (State.beatAtChecker_congr hsame)
      (fun x hx => (hv.examined.host x (hsame.symm.trans hx)).2) (by rw [hframe]) fun b hb => by
      rw [hentries, ← s.answered_entries]
      exact (hv.examined.hold.2 b hb).2.1
    have hchecker : p.settle.checker = s.checker := by
      rw [p.settle_checker, hstill, hentries, ← s.answered_checker, hv.examined.checker_eq, s.answered_entries]
    have hqueue : p.settle.queue = s.queue ∧ p.settle.alerts = s.alerts := by
      rw [p.settle_queue, p.settle_alerts, hstill, hframe]
      exact ⟨s.answered_queue, s.answered_alerts⟩
    have hhost : p.examine.host = s.hostAnswered := by
      rw [hstill, hframe, h.answered_eq]
    refine ⟨p.settle, ?_, ?_, ?_, fun i => ?_, ?_, fun hm => ?_⟩
    · rw [hexec, State.answered_endAccess hbus, hpq]
    · have hended := h.ended_frame (t := p.settle) (r := r) (by rw [hpq])
      rwa [hchecker, hqueue.1, hqueue.2] at hended
    · rw [← hhost]
      have hlist : p.port.list = if a.owner = .fetch then s.port.list.tail else s.port.list := by rw [hframe]
      rw [← hlist]
      exact hp.settle_handsOn (by rw [hframe]) (by rw [hframe]) (fun i _ => by rw [hentry]) fun i _ => by rw [hentry]
    · have hfilled := hp.entry_filled p.settle_entries i
      have hexamine : p.examine.entry i = s.entry i := by rw [State.entry, hstill]; exact hentry i
      rwa [hexamine] at hfilled
    · have horder := hp.settle_filledInOrder
      rwa [hentries] at horder
    · have hplaced : p.examine.placed = [] := State.placed_of_suspended (by rw [hstill, hframe]; exact s.answered_mode.trans hm)
      rw [p.settle_entries, State.filled, State.fill_entries, hplaced, hstill]
      exact hentries
  · rw [hexec, State.endAccess_of_free (by rw [State.answered_port, hbus]), h.answered_eq]

end Fetch

end Sys2Proof.Machine
end

section
/-! The end of a host access (R47 to R51, R70, R71, R83), and the pins that show an access and an answer (R57, R190). -/

namespace Sys2Proof.Machine

/-! ## Settling while a held beat stays held -/

theorem State.grant_host_of_not_waiting {s : State} (h : s.waitingBeat = none) : s.grant.host = s.host := by
  rcases s.grant_host with hg | hg
  · exact hg
  · rw [hg, State.issueBeat_of_none h]

/-- An examination moves requests at most. -/
theorem State.Unsettled.examine_length {p : State} (h : p.Unsettled) : p.examine.port.list.length = p.port.list.length := by
  rw [h.examine_list.1]
  cases hc : p.examine.checker with
  | none => rfl
  | some d => exact (promoted_perm _ (h.examine.blocking_nodup d hc) _).length_eq

/-- Where no place is left for a PENDING entry, settling is a grant to what the examination left. -/
theorem State.Unsettled.filled_eq {p : State} (h : p.Unsettled) (hroom : p.roomSound) : p.filled = p.examine :=
  h.examine.fill_eq (hroom.congr (by rw [State.examine_frame]) h.examine_length h.examine_list.2)

section Still
variable {p v : State}

/-- Settling while a beat held stays blocked: the sets of its decision are brought up to date and the bus is granted. -/
theorem State.Unsettled.still_settled (h : p.Unsettled) (hv : v.Examined) (hbeat : p.beatAtChecker = v.beatAtChecker)
    (hsound : ∀ x, p.host = some x → x.Sound) (hmode : p.mode = v.mode)
    (hb : ∀ b, v.beatAtChecker = some b → blockingOf p.entries b.addr b.op.dir ≠ []) (hroom : p.roomSound) :
    p.settle.entries = p.entries ∧ p.settle.checker = v.beatAtChecker.map (decisionOn p.entries) ∧
      p.settle.queue = p.queue ∧ p.settle.alerts = p.alerts ∧ p.examine.host = p.host := by
  have hstill := h.still_held hv hbeat hsound hmode hb
  rw [p.settle_entries, p.settle_checker, p.settle_queue, p.settle_alerts, h.filled_eq hroom]
  refine ⟨?_, ?_, ?_, ?_, ?_⟩ <;> rw [hstill]

end Still

/-! ## The pins -/

/-- The memory pins of each access. -/
theorem State.memoryPins_cases (s : State) :
    (s.port.bus = none → s.memoryPins = ⟨false, 0, false, 0, 0, some 0⟩) ∧
      (∀ a, s.port.bus = some a → a.op = .read → s.memoryPins = ⟨true, a.addr, false, 0, 0xF, none⟩) ∧
      ∀ a data strobes, s.port.bus = some a → a.op = .write data strobes →
        s.memoryPins = ⟨true, a.addr, true, 0, strobes, some data⟩ := by
  refine ⟨fun hbus => ?_, fun a hbus hop => ?_, fun a data strobes hbus hop => ?_⟩
  · rw [State.memoryPins, hbus]
    rfl
  · rw [State.memoryPins, hbus]
    simp only [hop]
    rfl
  · rw [State.memoryPins, hbus]
    simp only [hop]
    rfl

/-- The host pins of each answer. -/
theorem State.hostPins_cases (s : State) :
    (s.out.answer = none ∨ s.pins.hrstnLow = true → s.hostPins.hrdy = false ∧ s.hostPins.herr = false) ∧
      (s.power = .powerUpReset → s.out.answer = none → s.hostPins.hrd = some 0) ∧
      (s.pins.hrstnLow = false →
        (∀ data, s.out.answer = some (.dataOk data) → s.hostPins = ⟨true, false, some data⟩) ∧
        (s.out.answer = some .completionOk → s.hostPins = ⟨true, false, some 0⟩) ∧
        (s.out.answer = some .error → s.hostPins = ⟨true, true, some 0⟩)) := by
  refine ⟨fun hlow => ?_, fun hpower hnone => ?_, fun hhigh => ⟨fun data ha => ?_, fun ha => ?_, fun ha => ?_⟩⟩
  · unfold State.hostPins
    rcases hlow with hnone | hlow
    · rw [hnone]
      exact ⟨rfl, rfl⟩
    · cases s.out.answer with
      | none => exact ⟨rfl, rfl⟩
      | some a => cases a <;> simp [hlow]
  · simp [State.hostPins, hnone, hpower]
  · simp [State.hostPins, ha, hhigh]
  · simp [State.hostPins, ha, hhigh]
  · simp [State.hostPins, ha, hhigh]

/-! ## A host access -/

section HostAccess
variable {s : State} {a : Access} {wanted : Bool}

/-- An answer delivered after the edge: held for the transaction in progress, or discarded. -/
theorem State.trafficSound.delivered (h : s.trafficSound) (hbus : s.port.bus = some a) (how : a.owner = .host wanted)
    {v : State} (hv : v.host = s.hostAnswered) (ans : HostAnswer) :
    (v.deliver wanted ans).host =
        (if wanted then s.host.map fun x => { x with held := some ans } else s.hostAnswered) ∧
      (wanted = true → s.heldAnswer = none ∧
        ∀ f : State, f.host = (v.deliver wanted ans).host → f.grant.host = f.host) := by
  cases wanted with
  | false => exact ⟨hv, nofun⟩
  | true =>
    obtain ⟨x, b, hx, hheld, hb, hs, -, -⟩ := h.examined.exists_atMemory hbus how
    have hanswered : s.hostAnswered = some x := by rw [State.hostAnswered, hx]; simp [hheld]
    have hhost : (v.deliver true ans).host = some { x with held := some ans } := by simp [State.deliver, hv, hanswered]
    refine ⟨hhost.trans (by rw [hx]; rfl), fun _ => ⟨by rw [State.heldAnswer, hx]; exact hheld, fun f hf => ?_⟩⟩
    refine State.grant_host_of_not_waiting (Option.eq_none_iff_forall_ne_some.mpr fun c hc => ?_)
    obtain ⟨y, hy, hcurrent, hpassed⟩ := State.waitingBeat_iff.mp hc
    cases hy.symm.trans (hf.trans hhost)
    cases hcurrent.symm.trans hb
    cases hpassed.symm.trans hs

/-- What the completion effects of a beat leave and change. -/
theorem State.complete_eq (s : State) (addr : Addr) (op : BeatOp) (data : Word) {u : State}
    (hu : u = s.raise (collectFrom (fun i e => e.completionEvents i s.mode addr op data s.time.tickCounter) 0 s.entries)) :
    s.complete addr op data = { s with
      entries := mapFrom (fun _ e => e.completed s.mode addr op data) 0 s.entries, queue := u.queue, alerts := u.alerts } := by
  have hqueue : (s.complete addr op data).queue = u.queue := by
    rw [hu, State.complete]
    exact State.raise_queue_congr (by rfl) _
  have halerts : (s.complete addr op data).alerts = u.alerts := by
    rw [hu, State.complete]
    exact State.raise_alerts_congr (by rfl) (by rfl) _
  rw [← hqueue, ← halerts, State.complete, State.raise_frame]

/-- The state after a host access that completed, before it settles. -/
theorem State.afterAccess_completed (how : a.owner = .host wanted) (data : Word) {u : State}
    (hu : u = s.raise (collectFrom (fun i e => e.completionEvents i s.mode a.addr a.op data s.time.tickCounter) 0 s.entries)) :
    s.afterAccess a (.completion data) = { s with
      entries := mapFrom (fun _ e => e.completed s.mode a.addr a.op data) 0 s.entries
      host := (s.deliver wanted (answerOf a.op data)).host, port := { s.port with bus := none }
      queue := u.queue, alerts := u.alerts } := by
  have heq : s.afterAccess a (.completion data) = (s.busFreed.complete a.addr a.op data).deliver wanted (answerOf a.op data) := by
    simp only [State.afterAccess, how, State.endHost, State.busFreed]
  have hqueue : u.queue = (s.busFreed.raise
      (collectFrom (fun i e => e.completionEvents i s.mode a.addr a.op data s.time.tickCounter) 0 s.entries)).queue := by
    rw [hu]
    exact State.raise_queue_congr (by rfl) _
  have halerts : u.alerts = (s.busFreed.raise
      (collectFrom (fun i e => e.completionEvents i s.mode a.addr a.op data s.time.tickCounter) 0 s.entries)).alerts := by
    rw [hu]
    exact State.raise_alerts_congr (by rfl) (by rfl) _
  rw [heq, State.deliver_frame, s.busFreed.complete_eq a.addr a.op data rfl, hqueue, halerts]
  cases wanted <;> rfl

/-- Settles O21: every entry takes its effect, which leaves what a held beat waits for, so that settling is a grant. -/
theorem hostAccessCompletes : Obligations.HostAccessCompletes := by
  refine ⟨fun s => ?_, fun s a wanted data h hbus how => ?_⟩
  · obtain ⟨hfree, hread, hwrite⟩ := s.memoryPins_cases
    obtain ⟨hlow, hreset, hanswer⟩ := s.hostPins_cases
    exact ⟨hfree, hread, hwrite, hlow, hreset, hanswer⟩
  · intro u
    obtain ⟨p, hpq⟩ : ∃ p, p = s.answered.afterAccess a (.completion data) := ⟨_, rfl⟩
    have hv := h.answered
    have hp : p.Unsettled := hpq ▸ hv.examined.afterAccess_unsettled (by rw [State.answered_port, hbus]) _
    have hframe := State.afterAccess_completed (s := s.answered) how data rfl
    rw [← hpq, State.answered_entries, State.answered_mode, State.answered_port, State.answered_time] at hframe
    have hentries : p.entries = mapFrom (fun _ e => e.completed s.mode a.addr a.op data) 0 s.entries := by rw [hframe]
    have hroles : SameRoles s.entries p.entries :=
      hentries ▸ completed_sameRoles h.examined.table.2 s.mode a.addr a.op data
    obtain ⟨hdelivered, hwanted⟩ := h.delivered hbus how (v := s.answered) (by rw [h.answered_eq]) (answerOf a.op data)
    have hhost : p.host = (s.answered.deliver wanted (answerOf a.op data)).host := by rw [hframe]
    obtain ⟨hmode, hport⟩ : p.mode = s.mode ∧ p.port = { s.port with bus := none } := by
      rw [hframe]
      exact ⟨rfl, rfl⟩
    have hbus' : s.answered.port.bus = some a := by rw [State.answered_port, hbus]
    obtain ⟨-, hbeat, hsound⟩ := hv.examined.deliver hbus' how (answerOf_fits a.op data)
    have hsettled := hp.still_settled hv.examined ((State.beatAtChecker_congr hhost).trans hbeat)
      (fun x hx => (hsound x (hhost.symm.trans hx)).2) (hmode.trans s.answered_mode.symm) (fun b hb => ?_) ?_
    rotate_left
    · rw [← hroles.coverage.blockingOf, ← s.answered_entries]
      exact (hv.examined.hold.2 b hb).2.1
    · exact h.room.congr hmode (by rw [hport]) hroles
    obtain ⟨htentries, htchecker, htqueue, htalerts, hexamined⟩ := hsettled
    have hchecker' : p.settle.checker = s.checker := by
      rw [htchecker, h.answered_beatAtChecker, h.examined.checker_eq]
      exact congrArg (Option.map · _) (funext fun b => hroles.coverage.decisionOn b |>.symm)
    have hqueue : p.queue = u.queue := by rw [hframe]; exact State.raise_queue_congr s.answered_queue _
    have halerts : p.alerts = u.alerts := by rw [hframe]; exact State.raise_alerts_congr s.answered_queue s.answered_alerts _
    refine ⟨p.settle, ?_, ?_, ?_, fun hw => ?_⟩
    · rw [exec_memoryReady, State.answered_endAccess hbus, hpq]
      rfl
    · have hended := h.ended_frame (t := p.settle) (r := .completion data) (by rw [hpq])
      rwa [htentries, hentries, hchecker', htqueue, hqueue, htalerts, halerts] at hended
    · have hhands : s.handsOn p.settle p.port.list p.examine.host :=
        hp.settle_handsOn (by rw [hport]) (by rw [hport]) (fun i _ => EntryState.fetching_of_role (hroles.role i)) fun i _ =>
          Entry.base_congr (hroles.desc i)
      rw [hexamined, hhost, hdelivered, hport] at hhands
      exact hhands
    · obtain ⟨hnone, hgrant⟩ := hwanted hw
      have hf : p.filled.host = (s.answered.deliver wanted (answerOf a.op data)).host := p.filled_host.trans (hexamined.trans hhost)
      refine ⟨?_, ?_⟩
      · rw [p.settle_eq_grant, hgrant _ hf, hf, hdelivered, if_pos hw]
        rfl
      · rw [h.ended_frame (t := p.settle) (r := .completion data) (by rw [hpq]), hnone]

end HostAccess

end Sys2Proof.Machine
end

section
/-! Entries that set out to fetch, settled (R12, R14, R19, R20, R71), and the end of a host access that failed (R70, R71). -/

namespace Sys2Proof.Machine

/-! ## Entries that set out to fetch, settled -/

/-- These entries set out to fetch in ascending index, and none of them was waiting for its shadow. -/
structure State.SetsOut (s : State) (is : List Nat) : Prop where
  canFetch : CanFetch s.entries is
  sorted : is.Pairwise (· < ·)
  notPending : ∀ i ∈ is, (s.entry i).state ≠ .pending

namespace State.SetsOut
variable {w : State} {is : List Nat}

theorem spec (h : w.SetsOut is) (ht : TableSound w.entries) :
    (∀ j, (is.foldl State.beginFetch w).entry j =
      if j ∈ w.taking is then (w.entry j).restarted .fetching
      else if j ∈ is then (w.entry j).restarted .pending else w.entry j) ∧
      (is.foldl State.beginFetch w).entries.length = w.entries.length ∧
      (is.foldl State.beginFetch w).port.list = w.port.list ++ (w.taking is).map fun i => (w.entry i).request i :=
  State.beginFetches_spec is w h.canFetch.nodup fun i hi => ht.1 ▸ h.canFetch.lt i hi

/-- An entry that blocked still blocks. -/
theorem blocking (h : w.SetsOut is) (ht : TableSound w.entries) {addr : Addr} {dir : Direction}
    (hb : blockingOf w.entries addr dir ≠ []) : blockingOf (is.foldl State.beginFetch w).entries addr dir ≠ [] := by
  obtain ⟨hentry, hlength, -⟩ := h.spec ht
  obtain ⟨i, hi⟩ := List.exists_mem_of_ne_nil _ hb
  refine List.ne_nil_of_mem (a := i) ?_
  rw [mem_blockingOf] at hi ⊢
  have hnot : i ∉ is := fun hm => hi.2.2.elim (h.notPending i hm) (h.canFetch.idle i hm)
  have hsame := hentry i
  rw [if_neg fun hm => hnot (State.taking_subset w hm), if_neg hnot] at hsame
  rw [hlength, ← State.entry, hsame]
  exact hi

/-- An entry that finds no place finds the list full. -/
theorem full (h : w.SetsOut is) (ht : TableSound w.entries) (hcapacity : w.port.list.length ≤ listCapacity) {i : Nat}
    (hi : i ∈ is) (hn : i ∉ w.taking is) : (is.foldl State.beginFetch w).port.list.length = listCapacity := by
  obtain ⟨-, -, hlist⟩ := h.spec ht
  have hlt : listCapacity - w.port.list.length < is.length := by
    refine Nat.lt_of_not_le fun hge => hn ?_
    rw [State.taking, List.take_of_length_le hge]
    exact hi
  rw [hlist, List.length_append, List.length_map, State.taking, List.length_take]
  omega

/-- An entry that takes a place comes before one that finds none. -/
theorem order (h : w.SetsOut is) {i j : Nat} (hi : i ∈ w.taking is) (hj : j ∈ is) (hn : j ∉ w.taking is) : i < j := by
  have hsorted := h.sorted
  rw [← List.take_append_drop (listCapacity - w.port.list.length) is] at hsorted hj
  exact (List.pairwise_append.mp hsorted).2.2 i hi j ((List.mem_append.mp hj).resolve_left hn)

theorem roomSound (h : w.SetsOut is) (ht : TableSound w.entries) (hcapacity : w.port.list.length ≤ listCapacity)
    (hroom : w.roomSound) : (is.foldl State.beginFetch w).roomSound := by
  obtain ⟨hentry, -, hlist⟩ := h.spec ht
  have hmode : (is.foldl State.beginFetch w).mode = w.mode := by rw [State.beginFetches_frame]
  intro hm hfree
  have hlt := of_decide_eq_true hfree
  refine (forall_mem_iff_entryAt (p := fun e => e.state ≠ .pending) nofun).mpr fun j => ?_
  rw [← State.entry, hentry]
  split
  · exact nofun
  · next hn =>
    split
    · next hj => exact absurd (h.full ht hcapacity hj hn) (Nat.ne_of_lt hlt)
    · have hfree' : w.hasRoom = true := by
        rw [hlist, List.length_append] at hlt
        exact decide_eq_true (by omega)
      exact (forall_mem_iff_entryAt (p := fun e => e.state ≠ .pending) nofun).mp (hroom (hmode ▸ hm) hfree') j

/-- The requests of those that took places have joined the list. -/
theorem refilled (h : w.SetsOut is) (ht : TableSound w.entries) {s t : State} (hs : s.entries = w.entries)
    (hentries : t.entries = (is.foldl State.beginFetch w).entries) :
    s.refilled t w.port.list = promotedFor t.checker (is.foldl State.beginFetch w).port.list := by
  obtain ⟨hentry, -, hlist⟩ := h.spec ht
  have hsame : ∀ i, s.entry i = w.entry i := fun i => by rw [State.entry, hs, State.entry]
  have htaking : (w.taking is).Pairwise (· < ·) := h.sorted.sublist (List.take_sublist _ _)
  rw [State.refilled_eq (is := w.taking is) (htaking.imp Nat.ne_of_lt) (fun i => ?_) (htaking.filter _), hlist]
  · simp only [hsame]
  · have ht' : t.entry i = (is.foldl State.beginFetch w).entry i := by rw [State.entry, hentries, State.entry]
    rw [ht', hentry, hsame]
    constructor
    · intro hi
      have hmem := State.taking_subset w hi
      rw [if_pos hi]
      exact ⟨h.canFetch.lt i hmem, h.canFetch.idle i hmem, rfl⟩
    · rintro ⟨-, hne, hfetching⟩
      by_contra hn
      rw [if_neg hn] at hfetching
      split at hfetching
      · cases hfetching
      · exact hne hfetching

end State.SetsOut

/-- Settling that fills no place keeps the length of the list. -/
theorem State.Unsettled.settle_length {p : State} (h : p.Unsettled) (hroom : p.roomSound) :
    p.settle.port.list.length = p.port.list.length := by
  rw [p.settle_eq_grant, State.grant_list_length, h.filled_eq hroom, h.examine_length]

/-- The list before the grant, where a beat held stays blocked as entries set out to fetch. -/
theorem State.SetsOut.settled_list {w s p : State} {is : List Nat} (h : w.SetsOut is) (ht : TableSound w.entries)
    (hs : s.entries = w.entries) (hp : p = is.foldl State.beginFetch w) (hu : p.Unsettled) (hroom : p.roomSound)
    (hentries : p.settle.entries = p.entries) : s.refilled p.settle w.port.list = p.filled.port.list := by
  rw [h.refilled ht hs (hp ▸ hentries), p.settle_checker, hu.filled_eq hroom, hu.examine_list.1, hp]

/-! ## A host access that failed -/

section HostAccess
variable {s : State} {a : Access} {wanted : Bool}

theorem BeatOp.detail_eq (op : BeatOp) : op.detail = if op.dir = .read then 1 else 0 := by cases op <;> rfl

/-- What a failed host access leaves before its word's entries set out to fetch. -/
theorem State.failed_raises (wanted : Bool) (kind : EventKind) (w : Addr) (op : BeatOp) {ev : Event}
    (hev : s.partEvent kind (some w) (some op.detail) = ev) {u : State} (hqueue : s.queue = u.queue) (halerts : s.alerts = u.alerts) :
    (s.failed wanted kind w op).queue = (u.raise [ev]).queue ∧ (s.failed wanted kind w op).alerts = (u.raise [ev]).alerts := by
  subst hev
  rw [State.failed, State.deliver_frame]
  exact ⟨State.raise_queue_congr (by exact hqueue) _, State.raise_alerts_congr (by exact hqueue) (by exact halerts) _⟩

theorem State.afterAccess_failed (how : a.owner = .host wanted) {r : AccessEnd} {kind : EventKind}
    (hr : r = .memoryError ∧ kind = .memoryError ∨ r = .responseLimit ∧ kind = .memoryTimeout) :
    s.afterAccess a r = s.busFreed.failHost wanted kind a.addr a.op := by
  rcases hr with ⟨rfl, rfl⟩ | ⟨rfl, rfl⟩ <;> simp only [State.afterAccess, how, State.endHost, State.busFreed]

theorem State.returning_setsOut {w : State} (ht : TableSound w.entries) (addr : Addr) (op : BeatOp) :
    w.SetsOut (w.returning addr op) := by
  refine ⟨State.returning_canFetch ht addr op, w.returning_sorted addr op, fun i hi hp => ?_⟩
  obtain ⟨-, -, -, hs, -⟩ := State.mem_returning.mp hi
  cases hp.symm.trans hs

/-- The entries that a failed host access sends back to fetch, in the words of the claims. -/
theorem State.mem_returning_iff {w : State} {addr : Addr} {op : BeatOp} {i : Nat} :
    i ∈ w.returning addr op ↔ op.dir = .write ∧ (w.entry i).shadowBearing = true ∧ (w.entry i).state = .armed ∧
      (w.entry i).base = addr := by
  rw [State.mem_returning]
  refine ⟨fun ⟨hdir, _, hb, hs, hbase⟩ => ⟨hdir, hb, hs, hbase⟩, fun ⟨hdir, hb, hs, hbase⟩ => ⟨hdir, ?_, hb, hs, hbase⟩⟩
  by_contra hge
  rw [State.entry, entryAt_eq_empty (Nat.le_of_not_lt hge)] at hs
  cases hs

/-- What a failed host access changes before its word's entries set out to fetch. -/
theorem State.failed_answered (s : State) (a : Access) (wanted : Bool) (kind : EventKind) {w : State}
    (hw : w = s.answered.busFreed.failed wanted kind a.addr a.op) :
    w.entries = s.entries ∧ w.port = { s.port with bus := none } ∧ w.mode = s.mode ∧
      w.host = (s.answered.deliver wanted .error).host := by
  rw [hw, State.failed_frame]
  refine ⟨s.answered_entries, ?_, s.answered_mode, ?_⟩
  · rw [State.busFreed, s.answered_port]
  · cases wanted <;> rfl

/-- After a failed host access a held beat waits for what it waited for, and settling comes to a grant. -/
theorem State.trafficSound.failed_settled (h : s.trafficSound) (hbus : s.port.bus = some a) (how : a.owner = .host wanted)
    {r : AccessEnd} {kind : EventKind}
    (hr : r = .memoryError ∧ kind = .memoryError ∨ r = .responseLimit ∧ kind = .memoryTimeout) {w p : State}
    (hw : w = s.answered.busFreed.failed wanted kind a.addr a.op)
    (hpw : p = (w.returning a.addr a.op).foldl State.beginFetch w) :
    p = s.answered.afterAccess a r ∧ p.Unsettled ∧ p.roomSound ∧ p.settle.entries = p.entries ∧
      p.settle.checker = s.beatAtChecker.map (decisionOn p.entries) ∧ p.settle.queue = p.queue ∧
      p.settle.alerts = p.alerts ∧ p.filled.host = (s.answered.deliver wanted .error).host := by
  obtain ⟨hentries, hport, hmode, hhost⟩ := s.failed_answered a wanted kind hw
  have hlist : w.port.list = s.port.list := by rw [hport]
  have ht : TableSound w.entries := hentries ▸ h.examined.table
  have hv := h.answered
  have hbus' : s.answered.port.bus = some a := by rw [State.answered_port, hbus]
  have hpq : p = s.answered.afterAccess a r := by rw [hpw, State.afterAccess_failed how hr, State.failHost_eq, hw]
  have hp : p.Unsettled := hpq ▸ hv.examined.afterAccess_unsettled hbus' r
  have hset := State.returning_setsOut ht a.addr a.op
  have hroom : p.roomSound := by
    rw [hpw]
    exact hset.roomSound ht (hlist ▸ h.examined.fetch.capacity) (h.room.congr hmode (by rw [hlist]) (hentries ▸ .refl _))
  have hframe := State.beginFetches_frame (w.returning a.addr a.op) w
  rw [← hpw] at hframe
  have hphost : p.host = (s.answered.deliver wanted .error).host := by rw [hframe]; exact hhost
  have hpmode : p.mode = s.answered.mode := by rw [hframe]; exact hmode.trans s.answered_mode.symm
  obtain ⟨-, hbeat, hsound⟩ := hv.examined.deliver hbus' how (HostAnswer.error_fits a.op.dir)
  obtain ⟨htentries, htchecker, htqueue, htalerts, hexamined⟩ :=
    hp.still_settled hv.examined ((State.beatAtChecker_congr hphost).trans hbeat)
      (fun x hx => (hsound x (hphost.symm.trans hx)).2) hpmode (fun b hb => by
        rw [hpw]
        refine hset.blocking ht ?_
        rw [hentries, ← s.answered_entries]
        exact (hv.examined.hold.2 b hb).2.1) hroom
  rw [h.answered_beatAtChecker] at htchecker
  exact ⟨hpq, hp, hroom, htentries, htchecker, htqueue, htalerts, p.filled_host.trans (hexamined.trans hphost)⟩

/-- Settles O23: the entries on the written word set out to fetch, which leaves what a held beat waits for and the list full for
those that found no place, so that settling is a grant. -/
theorem hostAccessFails : Obligations.HostAccessFails := by
  intro s a wanted data h hbus how c kind cls hc u
  obtain ⟨r, hr, hcls, hexec⟩ : ∃ r, (r = AccessEnd.memoryError ∧ kind = .memoryError ∨ r = .responseLimit ∧ kind = .memoryTimeout) ∧
      cls = s.queue.classes.of kind ∧ exec c s = .next (s.answered.endAccess r) := by
    rcases hc with ⟨rfl, rfl, rfl⟩ | ⟨rfl, rfl, rfl⟩
    · exact ⟨_, .inl ⟨rfl, rfl⟩, rfl, exec_memoryReady s data true⟩
    · exact ⟨_, .inr ⟨rfl, rfl⟩, rfl, exec_responseLimit s⟩
  obtain ⟨w, hw⟩ : ∃ w, w = s.answered.busFreed.failed wanted kind a.addr a.op := ⟨_, rfl⟩
  obtain ⟨p, hpw⟩ : ∃ p, p = (w.returning a.addr a.op).foldl State.beginFetch w := ⟨_, rfl⟩
  obtain ⟨hwentries, hwport, -, -⟩ := s.failed_answered a wanted kind hw
  have hwlist : w.port.list = s.port.list := by rw [hwport]
  have ht : TableSound w.entries := hwentries ▸ h.examined.table
  have hset := State.returning_setsOut ht a.addr a.op
  have hcapacity : w.port.list.length ≤ listCapacity := hwlist ▸ h.examined.fetch.capacity
  obtain ⟨hpq, hp, hroom, htentries, htchecker, htqueue, htalerts, hfilled⟩ := h.failed_settled hbus how hr hw hpw
  obtain ⟨hdelivered, hwanted⟩ := h.delivered hbus how (v := s.answered) (by rw [h.answered_eq]) .error
  have hpframe := State.beginFetches_frame (w.returning a.addr a.op) w
  rw [← hpw] at hpframe
  obtain ⟨hwqueue, hwalerts⟩ := s.answered.busFreed.failed_raises wanted kind a.addr a.op (u := s)
    (ev := { kind, cls, tick := s.time.tickCounter, address := some a.addr, detail := some (if a.op.dir = .read then 1 else 0) })
    (by
      have hqueue : s.answered.busFreed.queue = s.queue := s.answered_queue
      have htime : s.answered.busFreed.time = s.time := s.answered_time
      rw [State.partEvent, hqueue, htime, hcls, BeatOp.detail_eq])
    s.answered_queue s.answered_alerts
  rw [← hw] at hwqueue hwalerts
  have hqueue : p.queue = u.queue := by rw [hpframe]; exact hwqueue
  have halerts : p.alerts = u.alerts := by rw [hpframe]; exact hwalerts
  have hfree : p.filled.port.bus = none := by rw [p.filled_bus, hpframe, hwport]
  have hentry : ∀ i, p.settle.entry i = if i ∈ w.taking (w.returning a.addr a.op) then (s.entry i).restarted .fetching
      else if i ∈ w.returning a.addr a.op then (s.entry i).restarted .pending else s.entry i := fun i => by
    have hsame : w.entry i = s.entry i := by rw [State.entry, hwentries, State.entry]
    have hi := (hset.spec ht).1 i
    rw [← hpw, hsame] at hi
    rw [← hi, State.entry, htentries, State.entry]
  have hreturns : ∀ i, i ∈ w.returning a.addr a.op ↔ a.op.dir = .write ∧ (s.entry i).shadowBearing = true ∧
      (s.entry i).state = .armed ∧ (s.entry i).base = a.addr := fun i => by
    rw [State.mem_returning_iff, State.entry, hwentries, State.entry]
  have hended := h.ended_frame (t := p.settle) (r := r) (by rw [hpq])
  refine ⟨p.settle, ?_, ?_, ?_, fun hwant => ?_, ?_, fun i => ⟨fun hi => ?_, fun hi => ?_⟩, fun i j hi hj hif hjp => ?_⟩
  · rw [hexec, State.answered_endAccess hbus, hpq]
  · rwa [htqueue, hqueue, htalerts, halerts] at hended
  · rw [← hdelivered, ← hfilled, ← hwlist]
    refine State.handsOn_of_grant (hp.filled.queued_of_free hfree).queued hfree ?_ ?_ rfl rfl
      (hset.settled_list ht hwentries.symm hpw hp hroom htentries)
    · rw [p.filled_lastGrant, hpframe, hwport]
    · exact p.settle_checker.trans (State.fill_checker _).symm
  · obtain ⟨hnone, hgrant⟩ := hwanted hwant
    refine ⟨?_, ?_⟩
    · rw [p.settle_eq_grant, hgrant _ hfilled, hfilled, hdelivered, if_pos hwant]
    · rw [hended, hnone]
  · rw [htchecker, htentries]
    rfl
  · have hmem := (hreturns i).mpr hi
    rw [hentry]
    by_cases hn : i ∈ w.taking (w.returning a.addr a.op)
    · exact .inl (if_pos hn)
    · rw [if_neg hn, if_pos hmem]
      refine .inr ⟨rfl, ?_⟩
      rw [hp.settle_length hroom, hpw]
      exact hset.full ht hcapacity hmem hn
  · have hn := mt (hreturns i).mp hi
    rw [hentry, if_neg fun hm => hn (State.taking_subset w hm), if_neg hn]
  · rw [hentry] at hif hjp
    refine hset.order (j := j) (i := i) ?_ ((hreturns j).mpr hj) fun hm => ?_
    · by_contra hn
      rw [if_neg hn, if_pos ((hreturns i).mpr hi)] at hif
      cases hif
    · rw [if_pos hm] at hjp
      cases hjp

end HostAccess

end Sys2Proof.Machine
end

section
/-! ARM ENTRY and RESYNC ENTRY (R12, R19, R168, R170). -/

namespace Sys2Proof.Machine

section Quietly
variable {s p : State}

/-- Settling grants no beat where none waits for a free bus. -/
theorem State.grant_host_of_arbiterSound {f : State} (h : s.arbiterSound) (hbus : f.port.bus = s.port.bus) (hhost : f.host = s.host) :
    f.grant.host = s.host := by
  cases ha : s.port.bus with
  | some a => rw [State.grant_of_busy (hbus.trans ha), hhost]
  | none =>
    have hwaiting : f.waitingBeat = none := by
      unfold State.waitingBeat
      rw [hhost]
      exact (h ha).2
    rw [State.grant_host_of_not_waiting hwaiting, hhost]

/-- The answer to a request that changed the table, the mode or the list, once it has settled. -/
theorem State.respond_settled (hframe : p = { s.quiet with mode := p.mode, entries := p.entries, checker := p.checker, port := p.port })
    {code : Byte} {payload : List Byte} {reply : Reply} {t : State} (ht : t = p.settle.respond code payload reply) :
    t = { s with
      mode := p.mode, entries := t.entries, checker := t.checker, host := t.host, port := t.port, queue := t.queue
      alerts := t.alerts, link := s.link.checked code payload reply, pins := s.pinsAfter 0, out := ⟨none, some 0⟩ } := by
  subst ht
  have hsettled := p.settle_frame
  generalize p.settle = u at hsettled ⊢
  rw [hframe] at hsettled
  rw [hsettled]
  rfl

/-- What a request leaves that changes the table and the list alone, and nothing that a held beat waits for. -/
theorem State.trafficSound.quietly (h : s.trafficSound) (hp : p.Unsettled)
    (hframe : p = { s.quiet with entries := p.entries, port := { s.port with list := p.port.list } })
    (hb : ∀ b, s.beatAtChecker = some b → blockingOf p.entries b.addr b.op.dir ≠ []) (hroom : p.roomSound)
    (hlist : ∀ t : State, t.entries = p.entries → s.refilled t s.port.list = promotedFor t.checker p.port.list)
    {code : Byte} {payload : List Byte} {reply : Reply} {t : State} (ht : t = p.settle.respond code payload reply) :
    t.entries = p.entries ∧ t.link = s.link.checked code payload reply ∧
      t = { s with entries := t.entries, checker := t.checker, port := t.port, link := t.link, pins := s.pinsAfter 0
                   out := ⟨none, some 0⟩ } ∧
      s.carriesOn t s.port.list s.host ∧
      t.checker = s.beatAtChecker.map fun b =>
        ⟨coveringOf t.entries b.addr b.op.dir, blockingOf t.entries b.addr b.op.dir⟩ := by
  have hhost : p.host = s.host := by rw [hframe]; rfl
  have hbeat : p.beatAtChecker = s.beatAtChecker := State.beatAtChecker_congr hhost
  obtain ⟨hentries, hchecker, hqueue, halerts, hexamined⟩ := hp.still_settled h.examined hbeat
    (fun x hx => (h.examined.host x (hhost.symm.trans hx)).2) (by rw [hframe]; rfl) hb hroom
  have hfilled : p.filled.host = s.host := p.filled_host.trans (hexamined.trans hhost)
  have hbus : p.filled.port.bus = s.port.bus := by rw [p.filled_bus, hframe]
  have hgrant : p.settle.host = s.host := State.grant_host_of_arbiterSound h.arbiter hbus hfilled
  have hanswer := State.respond_settled (s := s) (p := p) (by rw [hframe]) ht
  have hmode : p.mode = s.mode := by rw [hframe]; rfl
  have hqueue' : p.queue = s.queue := by rw [hframe]; rfl
  have halerts' : p.alerts = s.alerts := by rw [hframe]; rfl
  have hparts : t.host = s.host ∧ t.queue = s.queue ∧ t.alerts = s.alerts ∧ t.entries = p.entries ∧
      t.checker = p.settle.checker ∧ t.port = p.settle.port := by
    rw [ht]
    exact ⟨hgrant, hqueue.trans hqueue', halerts.trans halerts', hentries, rfl, rfl⟩
  obtain ⟨hthost, htqueue, htalerts, htentries, htchecker, htport⟩ := hparts
  have htlink : t.link = s.link.checked code payload reply := by rw [hanswer]
  rw [hthost, htqueue, htalerts, hmode, ← htlink] at hanswer
  refine ⟨htentries, htlink, hanswer, ?_, ?_⟩
  · rw [← hfilled]
    refine State.carriesOn_of_grant hp.filled hbus ?_ ?_ ?_ htport ?_
    · rw [p.filled_lastGrant, hframe]
    · exact htchecker.trans (p.settle_checker.trans (State.fill_checker _).symm)
    · exact hthost.trans hgrant.symm
    · rw [hlist t htentries, htchecker, p.settle_checker, hp.filled_eq hroom, hp.examine_list.1]
  · rw [htchecker, hchecker, htentries]
    rfl

end Quietly

/-! ## One entry changed -/

section Changed
variable {s : State} {i : Nat} {f : Entry}

/-- A beat stays blocked as an entry changes that did not block it. -/
theorem blockingOf_set_ne_nil {es : List Entry} (hi : i < es.length) (hp : (entryAt es i).state ≠ .pending)
    (hf : (entryAt es i).state ≠ .fetching) {addr : Addr} {dir : Direction} (hb : blockingOf es addr dir ≠ []) (e : Entry) :
    blockingOf (es.set i e) addr dir ≠ [] := by
  obtain ⟨j, hj⟩ := List.exists_mem_of_ne_nil _ hb
  refine List.ne_nil_of_mem (a := j) ?_
  rw [mem_blockingOf] at hj ⊢
  have hij : i ≠ j := by
    rintro rfl
    exact hj.2.2.elim hp hf
  rw [entryAt_set_of_lt hi, if_neg hij, List.length_set]
  exact hj

/-- An entry that waited for nothing, changed short of FETCHING, and settled. -/
theorem State.trafficSound.changedIdle (h : s.trafficSound) (hi : i < entryCount) (hpending : (s.entry i).state ≠ .pending)
    (hfetching : (s.entry i).state ≠ .fetching) (hu : (s.quiet.setEntry i f).Unsettled) (hf : f.state ≠ .fetching)
    (hm : f.state = .pending → s.mode = .suspended) {code : Byte} {payload : List Byte} {reply : Reply} {t : State}
    (ht : t = (s.quiet.setEntry i f).settle.respond code payload reply) :
    (∀ j, t.entry j = if i = j then f else s.entry j) ∧ t.link = s.link.checked code payload reply ∧
      t = { s with entries := t.entries, checker := t.checker, port := t.port, link := t.link, pins := s.pinsAfter 0
                   out := ⟨none, some 0⟩ } ∧
      s.carriesOn t s.port.list s.host ∧
      t.checker = s.beatAtChecker.map fun b =>
        ⟨coveringOf t.entries b.addr b.op.dir, blockingOf t.entries b.addr b.op.dir⟩ := by
  have hlt := h.examined.index_lt hi
  have hentry := entryAt_set_of_lt hlt f
  have hroom : (s.quiet.setEntry i f).roomSound := fun hmode hfree => by
    refine (forall_mem_iff_entryAt (p := fun e => e.state ≠ .pending) nofun).mpr fun j => ?_
    rw [State.setEntry_entries, show s.quiet.entries = s.entries from rfl, hentry]
    split
    · exact fun hp => nomatch (hm hp).symm.trans hmode
    · exact (forall_mem_iff_entryAt (p := fun e => e.state ≠ .pending) nofun).mp (h.room hmode hfree) j
  have hlist : ∀ t : State, t.entries = (s.quiet.setEntry i f).entries →
      s.refilled t s.port.list = promotedFor t.checker s.port.list := fun t hte => by
    rw [State.refilled_eq (is := []) .nil (fun j => ?_) .nil, List.map_nil, List.append_nil]
    refine iff_of_false List.not_mem_nil fun ⟨_, hne, hif⟩ => ?_
    rw [State.entry, hte, State.setEntry_entries, show s.quiet.entries = s.entries from rfl, hentry] at hif
    split at hif
    · exact hf hif
    · exact hne hif
  obtain ⟨hentries, hrest⟩ := h.quietly hu rfl
    (fun b hb => blockingOf_set_ne_nil hlt hpending hfetching (h.examined.hold.2 b hb).2.1 f) hroom hlist ht
  refine ⟨fun j => ?_, hrest⟩
  rw [State.entry, hentries]
  exact hentry j

/-- An entry that waited for nothing, sent out to fetch, and settled. -/
theorem State.trafficSound.changedFetching (h : s.trafficSound) (hi : i < entryCount) (hpending : (s.entry i).state ≠ .pending)
    (hfetching : (s.entry i).state ≠ .fetching) (hb : (s.entry i).shadowBearing = true) (hm : s.mode = .monitoring)
    {code : Byte} {payload : List Byte} {reply : Reply} {t : State}
    (ht : t = (s.quiet.beginFetch i).settle.respond code payload reply) :
    (∀ j, t.entry j = if i = j then (s.entry j).restarted (if s.hasRoom then .fetching else .pending) else s.entry j) ∧
      t.link = s.link.checked code payload reply ∧
      t = { s with entries := t.entries, checker := t.checker, port := t.port, link := t.link, pins := s.pinsAfter 0
                   out := ⟨none, some 0⟩ } ∧
      s.carriesOn t s.port.list s.host ∧
      t.checker = s.beatAtChecker.map fun b =>
        ⟨coveringOf t.entries b.addr b.op.dir, blockingOf t.entries b.addr b.op.dir⟩ := by
  have hq := h.quiet.examined
  have hset : s.quiet.SetsOut [i] :=
    ⟨⟨List.nodup_singleton i, by simpa, by simpa, by simpa⟩, List.pairwise_singleton _ i, by simpa⟩
  obtain ⟨hentries, hrest⟩ := h.quietly (hq.beginFetch hi hfetching hb hm) (s.quiet.beginFetch_frame i)
    (fun b hbeat => hset.blocking hq.table (h.examined.hold.2 b hbeat).2.1)
    (hset.roomSound hq.table hq.fetch.capacity h.quiet.room) (fun t hte => hset.refilled hq.table rfl hte) ht
  refine ⟨fun j => ?_, hrest⟩
  rw [State.entry, hentries]
  exact State.beginFetch_entry (hq.index_lt hi) j

end Changed

/-! ## ARM ENTRY and RESYNC ENTRY -/

section Requests
variable {s : State} {b : Byte}

/-- What a request on one entry performs. -/
theorem onEntry_single (hb : b.toNat < 48) (perform : Nat → State → State × Reply) (s : State) :
    onEntry [b] perform s = perform b.toNat s := if_pos hb

/-- A request that gives BAD_STATE changes nothing. -/
theorem exec_badState {c : Instr} {code : Byte} {s : State} {st : EntryState} (h : requestParts c = some (code, 1, [b]))
    (ha : s.link.awaits code [b] = true) (hr : performance c s.quiet = (s.quiet, .badState st)) :
    exec c s =
      .next { s with link := s.link.checked code [b] (.badState st), pins := s.pinsAfter 0, out := ⟨none, some 0⟩ } := by
  rw [exec_request_eq h ha rfl hr]
  rfl

theorem State.hasRoom_of_lt (h : s.port.list.length < 8) : s.hasRoom = true := decide_eq_true h

theorem State.not_hasRoom_of_full (h : s.port.list.length = 8) : ¬ s.hasRoom = true := fun hroom =>
  Nat.ne_of_lt (of_decide_eq_true hroom) h

theorem State.arm_of_not_loaded {i : Nat} (h : (s.entry i).state ≠ .loaded) : s.arm i = (s, .badState (s.entry i).state) :=
  if_neg h

theorem State.arm_plain {i : Nat} (h : (s.entry i).state = .loaded) (hb : (s.entry i).shadowBearing = false) :
    s.arm i = ((s.setEntry i ((s.entry i).restarted .armed)).settle,
      (s.setEntry i ((s.entry i).restarted .armed)).settle.entryReply i) := by
  simp [State.arm, h, hb]

theorem State.arm_fetching {i : Nat} (h : (s.entry i).state = .loaded) (hb : (s.entry i).shadowBearing = true)
    (hm : s.mode = .monitoring) : s.arm i = ((s.beginFetch i).settle, (s.beginFetch i).settle.entryReply i) := by
  simp [State.arm, h, hb, hm]

theorem State.arm_pending {i : Nat} (h : (s.entry i).state = .loaded) (hb : (s.entry i).shadowBearing = true)
    (hm : s.mode = .suspended) :
    s.arm i = ((s.setEntry i ((s.entry i).restarted .pending)).settle,
      (s.setEntry i ((s.entry i).restarted .pending)).settle.entryReply i) := by
  simp [State.arm, h, hb, hm]

/-- Settles O50: an entry that waited for nothing changes alone, which leaves a held beat blocked. -/
theorem armAndResyncBeginFetches : Obligations.ArmAndResyncBeginFetches := by
  intro s b hb i e quietly
  have hi : i < entryCount := hb
  have harm : performance (.armEntry [b]) s.quiet = s.quiet.arm i := onEntry_single hb _ _
  have hresync : performance (.resyncEntry [b]) s.quiet = s.quiet.resync i := onEntry_single hb _ _
  refine ⟨fun ha hs => ?_, fun ha h hs => ?_, fun ha hv => ?_, fun ha h hbear hs => ?_⟩
  · exact exec_badState rfl ha (harm.trans (State.arm_of_not_loaded hs))
  · have hp : (s.entry i).state ≠ .pending := fun hp => nomatch hs.symm.trans hp
    have hf : (s.entry i).state ≠ .fetching := fun hf => nomatch hs.symm.trans hf
    have he := h.quiet.examined
    cases hbear : (s.entry i).shadowBearing with
    | false =>
      have harmed : ((s.quiet.entry i).restarted .armed).sound = true :=
        Entry.restarted_armed_sound (he.table.entry i) fun hempty => nomatch hs.symm.trans hempty
      have hu := he.setIdle hi hf harmed nofun rfl fun _ hbear' => by
        cases hbear.symm.trans ((Entry.shadowBearing_congr (Entry.restarted_desc _ _)).symm.trans hbear')
      obtain ⟨hentry, hlink, hquietly⟩ := h.changedIdle hi hp hf hu nofun nofun rfl
      refine ⟨_, exec_request_eq rfl ha rfl (harm.trans (State.arm_plain hs hbear)), hquietly, hlink, fun j hj => ?_,
        fun _ => ?_, nofun, nofun⟩
      · rw [hentry, if_neg (Ne.symm hj)]
      · rw [hentry, if_pos rfl]
        rfl
    | true =>
      rcases s.mode_cases with hm | hm
      · obtain ⟨hentry, hlink, hquietly⟩ := h.changedFetching hi hp hf hbear hm rfl
        refine ⟨_, exec_request_eq rfl ha rfl (harm.trans (State.arm_fetching hs hbear hm)), hquietly, hlink, fun j hj => ?_,
          nofun, fun _ _ hroom => ?_, fun _ hor => ?_⟩
        · rw [hentry, if_neg (Ne.symm hj)]
        · rw [hentry, if_pos rfl, if_pos (State.hasRoom_of_lt hroom)]
        · have hfull := hor.resolve_left fun hm' => nomatch hm.symm.trans hm'
          rw [hentry, if_pos rfl, if_neg (State.not_hasRoom_of_full hfull)]
      · have hpending : ((s.quiet.entry i).restarted .pending).sound = true :=
          Entry.restarted_waiting_sound (he.table.entry i) hbear rfl
        have hu := he.setIdle hi hf hpending nofun rfl fun _ _ => nofun
        obtain ⟨hentry, hlink, hquietly⟩ := h.changedIdle hi hp hf hu nofun (fun _ => hm) rfl
        refine ⟨_, exec_request_eq rfl ha rfl (harm.trans (State.arm_pending hs hbear hm)), hquietly, hlink, fun j hj => ?_,
          nofun, fun _ hm' => (nomatch hm.symm.trans hm'), fun _ _ => ?_⟩
        · rw [hentry, if_neg (Ne.symm hj)]
        · rw [hentry, if_pos rfl]
          rfl
  · refine exec_badState rfl ha (hresync.trans (if_neg ?_))
    exact fun hvalid => hv ((Entry.shadowValid_iff _).mp hvalid)
  · have hvalid : (s.quiet.entry i).shadowValid = true := (Entry.shadowValid_iff _).mpr ⟨hbear, hs⟩
    have hm : s.mode = .monitoring := s.mode_cases.resolve_right fun hm => (h.examined.suspension.entry hm i hbear).1 hs
    obtain ⟨hentry, hlink, hquietly⟩ := h.changedFetching hi (fun hp => nomatch hs.symm.trans hp)
      (fun hf => nomatch hs.symm.trans hf) hbear hm rfl
    have hexec := exec_request_eq rfl ha rfl (hresync.trans (if_pos hvalid))
    refine ⟨_, hexec, hquietly, hlink, fun j hj => ?_, fun hroom => ?_, fun hfull => ?_⟩
    · rw [hentry, if_neg (Ne.symm hj)]
    · rw [hentry, if_pos rfl, if_pos (State.hasRoom_of_lt hroom)]
    · rw [hentry, if_pos rfl, if_neg (State.not_hasRoom_of_full hfull)]

end Requests

end Sys2Proof.Machine
end

section
/-! DISARM ENTRY and CLEAR ENTRY (R17, R18, R169). -/

namespace Sys2Proof.Machine

section Withdrawn
variable {s p : State} {i : Nat} {f : Entry}

/-- The state as an entry gives up its fetch and leaves the watch, before it settles. -/
def State.withdrawn (s : State) (i : Nat) (f : Entry) : State := (s.quiet.giveUpFetch i).setEntry i f

theorem State.trafficSound.withdrawn_entry (h : s.trafficSound) (hi : i < entryCount) (j : Nat) :
    (s.withdrawn i f).entry j = if i = j then f else s.entry j :=
  entryAt_set_of_lt (h.examined.index_lt hi) f j

theorem State.trafficSound.withdrawn_unsettled (h : s.trafficSound) (hi : i < entryCount) (hf : f.sound = true)
    (hfs : f.state.watching = false) : (s.withdrawn i f).Unsettled :=
  h.quiet.examined.withdraw hi hf hfs

/-- Without an access on the bus nothing waits, and nothing follows the withdrawal. -/
theorem State.trafficSound.withdrawn_of_free (h : s.trafficSound) (hi : i < entryCount) (hf : f.sound = true)
    (hfs : f.state.watching = false) (hbus : s.port.bus = none) :
    (s.withdrawn i f).filled = s.withdrawn i f ∧ (s.withdrawn i f).grant = s.withdrawn i f := by
  obtain ⟨hl, hw⟩ := h.arbiter hbus
  have hp := h.withdrawn_unsettled hi hf hfs
  have hcalm : (s.withdrawn i f).beatAtChecker = none := by
    refine Option.eq_none_iff_forall_ne_some.mpr fun b hb => ?_
    obtain ⟨a, ha⟩ := h.bus_of_hold (b := b) hb
    cases hbus.symm.trans ha
  have hlist : (s.withdrawn i f).port.list = [] := by
    show giveUp i s.port.list = []
    rw [hl]
    rfl
  have hroom : (s.withdrawn i f).roomSound := fun hm _ => by
    refine (forall_mem_iff_entryAt (p := fun e => e.state ≠ .pending) nofun).mpr fun j => ?_
    rw [← State.entry, h.withdrawn_entry hi]
    split
    · exact (EntryState.not_waiting_of_unwatched hfs).1
    · refine (forall_mem_iff_entryAt (p := fun e => e.state ≠ .pending) nofun).mp (h.room hm ?_) j
      rw [State.hasRoom, hl]
      rfl
  exact ⟨(hp.filled_eq hroom).trans (State.examine_of_none hcalm), (State.grant_of_nil (s := s.withdrawn i f) hbus hlist).1 hw⟩

/-- Settling a withdrawal grants nothing. -/
theorem State.trafficSound.withdrawn_settle (h : s.trafficSound) (hi : i < entryCount) (hf : f.sound = true)
    (hfs : f.state.watching = false) : (s.withdrawn i f).settle = (s.withdrawn i f).filled := by
  rw [State.settle_eq_grant]
  cases hbus : s.port.bus with
  | some a => exact State.grant_of_busy ((State.filled_bus _).trans hbus)
  | none =>
    obtain ⟨hfilled, hgrant⟩ := h.withdrawn_of_free hi hf hfs hbus
    rw [hfilled, hgrant]

/-- An entry that watches nothing has no fetch to give up, and nothing follows its change. -/
theorem State.trafficSound.withdrawn_unwatched (h : s.trafficSound) (hi : i < entryCount) (hs : (s.entry i).state.watching = false)
    (hf : f.sound = true) (hfs : f.state.watching = false) : (s.withdrawn i f).settle = s.quiet.setEntry i f := by
  have hlist : giveUp i s.port.list = s.port.list :=
    h.examined.fetch.giveUp_of_not_fetching (EntryState.not_waiting_of_unwatched hs).2
  have hsame : s.withdrawn i f = s.quiet.setEntry i f := by
    show { s.quiet with port := { s.port with list := giveUp i s.port.list }, entries := s.entries.set i f } = _
    rw [hlist]
    rfl
  rw [hsame]
  exact (h.quiet.setUnwatched hi hs hf hfs).settle_eq

/-- The request of an entry that gave up its fetch is left orphaned alone. -/
theorem State.trafficSound.withdrawn_orphaned (h : s.trafficSound) (hi : i < entryCount) (hf : f.sound = true)
    (hfs : f.state.watching = false) : ∀ r ∈ (s.withdrawn i f).filled.port.list, r.entry = i → r.orphaned = true := by
  have hp := h.withdrawn_unsettled hi hf hfs
  intro r hr he
  rw [hp.filled_list] at hr
  have hmem : r ∈ (s.withdrawn i f).port.list ++ (s.withdrawn i f).examine.placed.map fun j => ((s.withdrawn i f).entry j).request j := by
    revert hr
    cases hc : (s.withdrawn i f).examine.checker with
    | none => exact id
    | some d => exact (promoted_perm _ (hp.examine.blocking_nodup d hc) _).mem_iff.mp
  rcases List.mem_append.mp hmem with hold | hnew
  · exact giveUp_orphaned hold he
  · obtain ⟨j, hj, rfl⟩ := List.mem_map.mp hnew
    have hpending := (hp.filled_entry j).2 hj
    have hij : i = j := he.symm
    rw [h.withdrawn_entry hi, if_pos hij] at hpending
    exact absurd hpending (EntryState.not_waiting_of_unwatched hfs).1

/-- What DISARM ENTRY and CLEAR ENTRY leave, in the words of the claim. -/
def State.Left (s : State) (i : Nat) (f : Entry) (t : State) : Prop :=
  t = { s with entries := t.entries, checker := t.checker, host := t.host, port := t.port, queue := t.queue
               alerts := t.alerts, link := t.link, pins := s.pinsAfter 0, out := ⟨none, some 0⟩ } ∧
  s.reexamined (s.entries.set i f) t t.host ∧ t.filledInOrder (s.entries.set i f) ∧ t.entry i = f ∧
  t.port.list = s.refilled t (giveUp i s.port.list) ∧
  t.port.bus = s.port.bus ∧ t.port.lastGrant = s.port.lastGrant ∧
  (∀ r ∈ t.port.list, r.entry = i → r.orphaned = true) ∧
  ∀ j, j ≠ i → s.beatAtChecker = none → (s.entry j).filled (t.entry j)

/-- A withdrawal settled leaves what the claim says. -/
theorem State.trafficSound.left (h : s.trafficSound) (hi : i < entryCount) (hf : f.sound = true) (hfs : f.state.watching = false)
    {code : Byte} {payload : List Byte} {reply : Reply} {t : State}
    (ht : t = (s.withdrawn i f).settle.respond code payload reply) : s.Left i f t := by
  have hp := h.withdrawn_unsettled hi hf hfs
  have hsettle := h.withdrawn_settle hi hf hfs
  have horphaned := h.withdrawn_orphaned hi hf hfs
  have hpentry := h.withdrawn_entry (f := f) hi
  have hanswer := State.respond_settled (s := s) (p := s.withdrawn i f) rfl ht
  rw [hsettle] at ht
  obtain ⟨hpend, hfetch⟩ := EntryState.not_waiting_of_unwatched hfs
  obtain ⟨p, hpq⟩ : ∃ p, p = s.withdrawn i f := ⟨_, rfl⟩
  rw [← hpq] at hp horphaned hpentry ht
  have hparts : t.entries = p.filled.entries ∧ t.checker = p.examine.checker ∧ t.host = p.examine.host ∧
      t.queue = p.examine.queue ∧ t.alerts = p.examine.alerts ∧ t.port = p.filled.port ∧ t.mode = p.mode ∧
      t.link = s.link.checked code payload reply := by
    have hfill : p.filled.queue = p.examine.queue ∧ p.filled.alerts = p.examine.alerts ∧ p.filled.mode = p.mode := by
      refine ⟨?_, ?_, by rw [p.filled_frame]⟩ <;> rw [State.filled, State.fill_frame]
    obtain ⟨hqueue, halerts, hmode⟩ := hfill
    have hlink : t.link = s.link.checked code payload reply := by rw [hanswer]
    rw [ht] at hlink ⊢
    exact ⟨rfl, State.fill_checker _, p.filled_host, hqueue, halerts, rfl, hmode, hlink⟩
  obtain ⟨hentries, hchecker, hhost, hqueue, halerts, hport, hmode, hlink⟩ := hparts
  have hset : s.entries.set i f = p.entries := by rw [hpq]; rfl
  have hlist : p.port.list = giveUp i s.port.list := by rw [hpq]; rfl
  have hself : p.entry i = f := (hpentry i).trans (if_pos rfl)
  have htself : t.entry i = f := by
    rw [hp.entry_of_not_pending hentries (by rw [hself]; exact hpend)]
    refine (((hp.examine_entry i).2.2.2 (.inl ?_))).trans hself
    rw [hself]
    intro ha
    rw [ha] at hfs
    cases hfs
  refine ⟨?_, ?_, ?_, htself, ?_, ?_, ?_, ?_, fun j hj hb => ?_⟩
  · rw [← hlink] at hanswer
    exact hanswer
  · rw [hhost, hset]
    refine hp.reexamined (s := s) (by rw [hpq]; rfl) (by rw [hpq]; rfl) (by rw [hpq]; rfl) (by rw [hpq]; rfl) (fun b hb => ?_)
      hentries hchecker hqueue halerts
    have hsb : s.beatAtChecker = some b := by rw [← hb, hpq]; rfl
    obtain ⟨x, hpres⟩ := State.beatAtChecker_iff.mp hsb
    refine ⟨?_, hpres.held_of_sound (h.examined.host x hpres.host).2⟩
    rw [hpq]
    exact (h.examined.hold.2 b hsb).1
  · rw [hset]
    exact hp.filledInOrder hmode hentries hchecker (by rw [hport])
  · rw [hport, ← hlist]
    refine (hp.refilled hentries hchecker (fun j hj => ?_) fun j hj => ?_).symm
    · rw [hpentry, if_neg]
      rintro rfl
      rw [htself] at hj
      exact hfetch hj
    · rw [hpentry, if_neg]
      rintro rfl
      rw [hself] at hj
      exact hpend hj
  · rw [hport, p.filled_bus, hpq]
    rfl
  · rw [hport, p.filled_lastGrant, hpq]
    rfl
  · rw [hport]
    exact horphaned
  · have hcalm : p.beatAtChecker = none := by rw [← hb, hpq]; rfl
    have hfilled := hp.entry_filled hentries j
    rwa [State.examine_of_none hcalm, hpentry, if_neg (Ne.symm hj)] at hfilled

end Withdrawn

/-! ## The requests -/

section Requests
variable {s : State} {b : Byte}

theorem EntryState.watching_iff {st : EntryState} : st.watching = true ↔ ¬(st = .empty ∨ st = .loaded) := by
  cases st <;> simp [EntryState.watching]

theorem State.clear_of_watching {i : Nat} (h : (s.entry i).state.watching = true) :
    s.clear i = (((s.giveUpFetch i).setEntry i Entry.empty).settle,
      ((s.giveUpFetch i).setEntry i Entry.empty).settle.entryReply i) := by
  simp only [State.clear, h, if_true]

theorem State.clear_of_unwatched {i : Nat} (h : (s.entry i).state.watching = false) :
    s.clear i = (s.setEntry i Entry.empty, (s.setEntry i Entry.empty).entryReply i) := by
  simp [State.clear, h]

/-- The answer to a withdrawal is the state that the entry was left in. -/
theorem State.trafficSound.left_answered (h : s.trafficSound) (hi : b.toNat < entryCount) {f : Entry} (hf : f.sound = true)
    (hfs : f.state.watching = false) {c : Instr} {code : Byte} (hparts : requestParts c = some (code, 1, [b]))
    (ha : s.link.awaits code [b] = true)
    (hr : performance c s.quiet = ((s.withdrawn b.toNat f).settle, (s.withdrawn b.toNat f).settle.entryReply b.toNat)) :
    ∃ t, exec c s = .next t ∧ t.link = s.link.checked code [b] (.ok [f.state.code]) ∧ s.Left b.toNat f t := by
  have hleft := h.left hi hf hfs (code := code) (payload := [b])
    (reply := (s.withdrawn b.toNat f).settle.entryReply b.toNat) rfl
  obtain ⟨-, -, -, hself, -⟩ := id hleft
  have hself' : (s.withdrawn b.toNat f).settle.entry b.toNat = f := hself
  refine ⟨_, exec_request_eq hparts ha rfl hr, ?_, hleft⟩
  rw [State.respond_link, State.entryReply, hself', State.settle_frame]
  rfl

/-- Settles O51: the entry gives up its fetch and leaves the watch, which is settled without a grant. -/
theorem disarmAndClearGiveUpTheFetch : Obligations.DisarmAndClearGiveUpTheFetch := by
  intro s b h hb i e left
  have hi : i < entryCount := hb
  have hsound : e.sound = true := h.examined.table.entry i
  have hdisarm : performance (.disarmEntry [b]) s.quiet = s.quiet.disarm i := onEntry_single hb _ _
  have hclear : performance (.clearEntry [b]) s.quiet = s.quiet.clear i := onEntry_single hb _ _
  refine ⟨fun ha hs => ?_, fun ha hs => ?_, fun ha => ?_⟩
  · refine exec_badState rfl ha (hdisarm.trans (if_neg fun hw => ?_))
    exact EntryState.watching_iff.mp hw hs
  · have hne : e.state ≠ .empty := fun hempty => hs (.inl hempty)
    refine h.left_answered hi (f := e.restarted .loaded) (Entry.restarted_loaded_sound hsound hne) rfl rfl ha (hdisarm.trans ?_)
    exact if_pos (EntryState.watching_iff.mpr hs)
  · refine h.left_answered hi (f := Entry.empty) Entry.empty_sound rfl rfl ha (hclear.trans ?_)
    cases hw : e.state.watching with
    | true => exact State.clear_of_watching (s := s.quiet) hw
    | false =>
      rw [h.withdrawn_unwatched hi hw Entry.empty_sound rfl]
      exact State.clear_of_unwatched (s := s.quiet) hw

end Requests

end Sys2Proof.Machine
end

section
/-! SUSPEND and RESUME (R24, R26, R35, R173). -/

namespace Sys2Proof.Machine

/-! ## SUSPEND -/

section Suspend
variable {s : State}

/-- A waiting entry stands at its start values, whatever state it waits in. -/
theorem Entry.sound.restarted_of_waiting {e : Entry} (h : e.sound = true) (hw : e.state.waiting = true) (st : EntryState) :
    e.restarted st = { e with state := st } := by
  obtain ⟨d, hd, -⟩ := Entry.exists_desc_of_bearing (Entry.sound.bearing_of_waiting h hw)
  obtain ⟨-, -, hrt⟩ := (Entry.sound_of_waiting hd hw).mp h
  rw [Entry.restarted_of_desc hd, ← hrt, ← hd]

theorem Entry.suspended_eq {e : Entry} (h : e.sound = true) :
    e.suspended =
      if e.shadowBearing = true ∧ (e.state = .armed ∨ e.state = .fetching) then e.restarted .pending else e := by
  unfold Entry.suspended
  cases hb : e.shadowBearing with
  | false => simp
  | true =>
    cases hs : e.state with
    | fetching => simpa using (Entry.sound.restarted_of_waiting h (by rw [hs]; rfl) .pending).symm
    | _ => simp

/-- The held beat released, and nothing else examined. -/
theorem State.trafficSound.suspending_examine (h : s.trafficSound) :
    s.suspending.examine = { s.suspending with checker := none, host := s.host.map Transaction.released } := by
  cases hb : s.beatAtChecker with
  | none =>
    have hbeat : s.suspending.beatAtChecker = none := hb
    rw [State.examine_of_none hbeat, h.examined.released_of_calm hb, ← h.examined.hold.1 hb]
    rfl
  | some b =>
    obtain ⟨x, hp⟩ := State.beatAtChecker_iff.mp hb
    have hp' : s.suspending.Presents x b := ⟨hp.host, hp.current, hp.course, hp.state⟩
    rw [State.examine_suspended hp' (hp.held_none (h.unsettled.host x hp.host).2) rfl, h.examined.released_of_presents hp]

/-- SUSPEND settled: no place is filled, and nothing is granted. -/
theorem State.trafficSound.suspending_settle (h : s.trafficSound) :
    s.suspending.settle = { s.suspending with checker := none, host := s.host.map Transaction.released } := by
  have hexamine := h.suspending_examine
  have hp := h.examined.suspending
  rw [State.settle_eq_grant, hp.filled_eq nofun, hexamine]
  cases hbus : s.port.bus with
  | some a => exact State.grant_of_busy hbus
  | none =>
    obtain ⟨hl, hw⟩ := h.arbiter hbus
    have hcalm : s.beatAtChecker = none := Option.eq_none_iff_forall_ne_some.mpr fun b hb => by
      obtain ⟨a, ha⟩ := h.bus_of_hold hb
      cases hbus.symm.trans ha
    rw [h.examined.released_of_calm hcalm]
    have hlist : suspendedList s.port.list = [] := by rw [hl]; rfl
    exact (State.grant_of_nil (s := { s.suspending with checker := none, host := s.host }) hbus hlist).1 hw

end Suspend

/-! ## RESUME -/

section Resume
variable {s : State}

/-- The state as RESUME leaves it, before PENDING entries take places. -/
def State.resuming (s : State) : State := { s with mode := .monitoring }

theorem State.Examined.calm_of_suspended (h : s.Examined) (hm : s.mode = .suspended) : s.beatAtChecker = none :=
  Option.eq_none_iff_forall_ne_some.mpr fun b hb => nomatch hm.symm.trans (h.hold.2 b hb).1

/-- Places taken and the bus granted, in the words of the claim. -/
theorem State.trafficSound.resumed (h : s.trafficSound) (hm : s.mode = .suspended) {code : Byte} {payload : List Byte}
    {reply : Reply} {t : State} (ht : t = s.quiet.resuming.settle.respond code payload reply) :
    t = { s with mode := .monitoring, entries := t.entries, port := t.port, link := s.link.checked code payload reply
                 pins := s.pinsAfter 0, out := ⟨none, some 0⟩ } ∧
      s.carriesOn t s.port.list s.host ∧ (∀ i, (s.entry i).filled (t.entry i)) ∧
      ∀ j, (t.entry j).state = .pending → t.port.list.length = 8 ∧
        ∀ i, (s.entry i).state = .pending → (t.entry i).state = .fetching → i < j := by
  obtain ⟨p, hpq⟩ : ∃ p, p = s.quiet.resuming := ⟨_, rfl⟩
  have hp : p.Unsettled := hpq ▸ h.quiet.examined.resuming
  have hcalm : p.beatAtChecker = none := by rw [hpq]; exact h.examined.calm_of_suspended hm
  have hexamine : p.examine = p := State.examine_of_none hcalm
  have hfilled : p.filled.host = s.host := by rw [p.filled_host, hexamine, hpq]; rfl
  have hbus : p.filled.port.bus = s.port.bus := by rw [p.filled_bus, hpq]; rfl
  have hgrant : p.filled.grant.host = s.host := State.grant_host_of_arbiterSound h.arbiter hbus hfilled
  have hanswer := State.respond_settled (s := s) (p := s.quiet.resuming) rfl ht
  rw [← hpq] at ht
  have hparts : t.entries = p.filled.entries ∧ t.checker = p.checker ∧ t.queue = p.queue ∧ t.alerts = p.alerts := by
    rw [ht]
    refine ⟨p.settle_entries, p.settle_checker.trans ?_, p.settle_queue.trans ?_, p.settle_alerts.trans ?_⟩ <;> rw [hexamine]
  obtain ⟨hentries, hchecker, hqueue, halerts⟩ := hparts
  have hhost : t.host = p.filled.grant.host := by rw [ht]; rfl
  have hport : t.port = p.filled.grant.port := by rw [ht]; rfl
  have hmode : t.mode = .monitoring := by rw [hanswer]; rfl
  have hcnone : t.checker = none := by rw [hchecker, hp.idle hcalm]
  have hentry : ∀ i, p.entry i = s.entry i := fun i => by rw [hpq]; rfl
  refine ⟨?_, ?_, fun i => ?_, fun j hj => ?_⟩
  · have hsame : t.host = s.host ∧ t.checker = s.checker ∧ t.queue = s.queue ∧ t.alerts = s.alerts := by
      rw [hhost, hgrant, hchecker, hqueue, halerts, hpq]
      exact ⟨rfl, rfl, rfl, rfl⟩
    obtain ⟨hthost, htchecker, htqueue, htalerts⟩ := hsame
    rw [hthost, htchecker, htqueue, htalerts] at hanswer
    exact hanswer
  · rw [← hfilled]
    refine State.carriesOn_of_grant hp.filled hbus (by rw [p.filled_lastGrant, hpq]; rfl) ?_ hhost hport ?_
    · rw [hchecker, State.filled, State.fill_checker, hexamine]
    · have hlist : s.port.list = p.port.list := by rw [hpq]; rfl
      rw [hlist]
      exact hp.refilled hentries (by rw [hchecker, hexamine]) (fun i _ => by rw [hentry]) fun i _ => by rw [hentry]
  · have hf := hp.entry_filled hentries i
    rwa [hexamine, hentry] at hf
  · have horder := hp.filledInOrder (t := t) (by rw [hmode, hpq]; rfl) hentries (by rw [hchecker, hexamine])
      (by rw [hport, State.grant_list_length])
    obtain ⟨hfull, hbefore⟩ := horder hmode j hj
    refine ⟨hfull, fun i hi hif => ?_⟩
    have hi' : (entryAt p.entries i).state = .pending := by rw [← State.entry, hentry]; exact hi
    simpa [hcnone] using hbefore i hi' hif

end Resume

/-! ## The requests -/

theorem State.suspendPart_of_suspended {s : State} (h : s.mode = .suspended) : s.suspendPart = (s, .badMode .suspended) := by
  simp [State.suspendPart, h]

theorem State.resumePart_of_monitoring {s : State} (h : s.mode = .monitoring) : s.resumePart = (s, .badMode .monitoring) := by
  simp [State.resumePart, h]

theorem exec_badMode {s : State} {c : Instr} {code : Byte} {mode : PartMode} (h : requestParts c = some (code, 0, []))
    (ha : s.link.awaits code [] = true) (hr : performance c s.quiet = (s.quiet, .badMode mode)) :
    exec c s = .next { s with link := s.link.checked code [] (.badMode mode), pins := s.pinsAfter 0, out := ⟨none, some 0⟩ } := by
  rw [exec_request_eq h ha rfl hr]
  rfl

/-- Settles O52: SUSPEND releases the held beat and grants nothing; RESUME fills places and grants a free bus. -/
theorem suspendAndResumeChangeTheMode : Obligations.SuspendAndResumeChangeTheMode := by
  intro s h
  refine ⟨fun ha hm => ?_, fun ha hm => ?_, fun ha hm => ?_, fun ha hm => ?_⟩
  · have hsuspend : performance (.suspend []) s.quiet = (s.quiet.suspending.settle, .ok s.quiet.suspending.settle.modeBlock) :=
      if_pos hm
    refine ⟨_, exec_request_eq rfl ha rfl hsuspend, ?_, ?_, fun i => ?_⟩
    · rw [h.quiet.suspending_settle]
      rfl
    · rw [h.quiet.suspending_settle]
      rfl
    · have hsuspended : (s.entry i).suspended = _ := Entry.suspended_eq (h.examined.table.entry i)
      rw [h.quiet.suspending_settle]
      exact (s.suspending_entry i).trans hsuspended
  · exact exec_badMode rfl ha (State.suspendPart_of_suspended (s := s.quiet) hm)
  · have hresume : performance (.resume []) s.quiet = (s.quiet.resuming.settle, .ok s.quiet.resuming.settle.modeBlock) :=
      if_pos hm
    obtain ⟨hanswer, hcarries, hfilled, horder⟩ := h.resumed hm (code := 0x21) (payload := [])
      (reply := .ok s.quiet.resuming.settle.modeBlock) rfl
    have hblock : s.quiet.resuming.settle.modeBlock = [0, byteOf s.quiet.resuming.settle.port.list.length] := by
      rw [State.modeBlock, State.settle_mode]
      rfl
    refine ⟨_, exec_request_eq rfl ha rfl hresume, ?_, hcarries, hfilled, horder⟩
    rw [hblock] at hanswer ⊢
    exact hanswer
  · exact exec_badMode rfl ha (State.resumePart_of_monitoring (s := s.quiet) hm)

end Sys2Proof.Machine
end
